-- ==== Sys2Proof/Word.lean ====
section
/-! DEFINITION. The two widths of the M68HC08 CPU (spec 00 R4): every register, memory cell and bus
cycle holds 8 bits; the program counter, the stack pointer, the pair `H:X` and every address 16. -/

namespace Sys2Proof

/-- An 8-bit quantity (R4, R5). Bit 7 is the most significant. -/
abbrev Byte := BitVec 8

/-- A 16-bit quantity or address (R4, R5). Its arithmetic is modulo 2^16 (R5, R53). -/
abbrev Word := BitVec 16

end Sys2Proof
end

