-- ==== Sys2Proof/Machine/Bits.lean ====
section
/-! DEFINITION. The byte and word helpers of the notation (spec 00 R5, R6) and the byte order (R54, R55):
the high byte of a 16-bit quantity always comes first. -/

namespace Sys2Proof

/-- `a:b`, `a` in the more significant position (R5). -/
def wordOf (hi lo : Byte) : Word := hi ++ lo

/-- `v[15:8]`. -/
def hiByte (v : Word) : Byte := v.extractLsb' 8 8

/-- `v[7:0]`. -/
def loByte (v : Word) : Byte := v.extractLsb' 0 8

/-- `zext_16(v)` (R6). -/
def zext16 (v : Byte) : Word := v.setWidth 16

/-- `sext_16(v)` (R6). -/
def sext16 (v : Byte) : Word := v.signExtend 16

/-- The byte with bit `n` alone set: `1 << n` (R160, R163). -/
def bitMask (n : Fin 8) : Byte := 1#8 <<< n.val

end Sys2Proof
end

