-- ==== Sys2Proof/Syntax.lean ====
section
/-! DEFINITION. The instruction set of Table 1 (spec 00 R2): one constructor of `Instr` for each of the
114 mnemonics of spec/opcode_table.json. The 290 rows of the table are the operand forms of these
mnemonics: a row is a constructor applied to an addressing mode or a bit number. The eight alternate
mnemonics (ASL, ASLA, ASLX, BHS, BLO; R105) spell words of LSL, LSLA, LSLX, BCC and BCS. -/

namespace Sys2Proof

/-- The addressing modes that name one byte of memory (R86 to R92). -/
inductive MemMode where
  /-- DIR: direct address `dd` (R86). -/
  | dir (dd : Byte)
  /-- EXT: extended address `hh ll` (R87). -/
  | ext (hhll : Word)
  /-- IX2: `H:X` plus the 16-bit offset `ee ff` (R90). -/
  | ix2 (eeff : Word)
  /-- IX1: `H:X` plus the 8-bit offset `ff` (R89). -/
  | ix1 (ff : Byte)
  /-- IX: `H:X` (R88). -/
  | ix
  /-- SP2: `SP` plus the 16-bit offset `ee ff` (R92). -/
  | sp2 (eeff : Word)
  /-- SP1: `SP` plus the 8-bit offset `ff` (R91). -/
  | sp1 (ff : Byte)
  deriving DecidableEq, Repr

/-- The operand `M` of a reading register/memory instruction (R120): an immediate byte (R85) or a
memory byte. -/
inductive Source where
  /-- IMM: the byte `ii` itself. -/
  | imm (ii : Byte)
  /-- The byte at the effective address of the mode. -/
  | mem (m : MemMode)
  deriving DecidableEq, Repr

/-- The 16-bit operand of LDHX and CPHX (R212, R213). -/
inductive Source16 where
  /-- IMM: `ii:jj` (R85). -/
  | imm (iijj : Word)
  /-- DIR: the bytes at `$00:dd` and the next address. -/
  | dir (dd : Byte)
  deriving DecidableEq, Repr

/-- The memory operands of CBEQ (R193). -/
inductive CbeqMode where
  /-- DIR (R86). -/
  | dir (dd : Byte)
  /-- IX1+: `H:X` plus `ff`, then `H:X` is incremented (R94). -/
  | ix1Plus (ff : Byte)
  /-- IX+: `H:X`, then `H:X` is incremented (R93). -/
  | ixPlus
  /-- SP1 (R91). -/
  | sp1 (ff : Byte)
  deriving DecidableEq, Repr

/-- The four forms of MOV, source then destination (R96, R214). -/
inductive MoveForm where
  /-- DIR/DIR. -/
  | dirDir (src dst : Byte)
  /-- DIR/IX+. -/
  | dirIxPlus (src : Byte)
  /-- IMM/DIR. -/
  | immDir (ii dst : Byte)
  /-- IX+/DIR. -/
  | ixPlusDir (dst : Byte)
  deriving DecidableEq, Repr

/-- The instructions of Table 1, in the order of spec/opcode_table.json. `n` is a bit number, `dd` a
direct address, `ii` an immediate, `rr` a signed offset from the next instruction (R82). -/
inductive Instr where
  -- rows 0 and 1: bit manipulation (spec 42)
  | brset (n : Fin 8) (dd rr : Byte)
  | brclr (n : Fin 8) (dd rr : Byte)
  | bset (n : Fin 8) (dd : Byte)
  | bclr (n : Fin 8) (dd : Byte)
  -- row 2: simple branches (spec 43)
  | bra (rr : Byte)
  | brn (rr : Byte)
  | bhi (rr : Byte)
  | bls (rr : Byte)
  | bcc (rr : Byte)
  | bcs (rr : Byte)
  | bne (rr : Byte)
  | beq (rr : Byte)
  | bhcc (rr : Byte)
  | bhcs (rr : Byte)
  | bpl (rr : Byte)
  | bmi (rr : Byte)
  | bmc (rr : Byte)
  | bms (rr : Byte)
  | bil (rr : Byte)
  | bih (rr : Byte)
  -- rows 3, 6, 7 and page 2 row 6: one memory byte (spec 41, 43, 45)
  | neg (m : MemMode)
  | cbeq (m : CbeqMode) (rr : Byte)
  | com (m : MemMode)
  | lsr (m : MemMode)
  | sthx (dd : Byte)
  | ror (m : MemMode)
  | asr (m : MemMode)
  | lsl (m : MemMode)
  | rol (m : MemMode)
  | dec (m : MemMode)
  | dbnz (m : MemMode) (rr : Byte)
  | inc (m : MemMode)
  | tst (m : MemMode)
  | clr (m : MemMode)
  -- row 4: register A, and MUL, LDHX, MOV
  | nega
  | cbeqa (ii rr : Byte)
  | mul
  | coma
  | lsra
  | ldhx (src : Source16)
  | rora
  | asra
  | lsla
  | rola
  | deca
  | dbnza (rr : Byte)
  | inca
  | tsta
  | mov (f : MoveForm)
  | clra
  -- row 5: register X, and DIV
  | negx
  | cbeqx (ii rr : Byte)
  | div
  | comx
  | lsrx
  | rorx
  | asrx
  | lslx
  | rolx
  | decx
  | dbnzx (rr : Byte)
  | incx
  | tstx
  | clrx
  -- the odd columns of rows 6 and 7
  | nsa
  | cphx (src : Source16)
  | daa
  -- rows 8 and 9: control (spec 43, 45, 46, 47)
  | rti
  | rts
  | swi
  | tap
  | tpa
  | pula
  | psha
  | pulx
  | pshx
  | pulh
  | pshh
  | clrh
  | stop
  | wait
  | bge (rr : Byte)
  | blt (rr : Byte)
  | bgt (rr : Byte)
  | ble (rr : Byte)
  | txs
  | tsx
  | tax
  | clc
  | sec
  | cli
  | sei
  | rsp
  | nop
  | txa
  -- rows A to F and page 2 rows D, E: register/memory (spec 40, 44, 45)
  | sub (src : Source)
  | cmp (src : Source)
  | sbc (src : Source)
  | cpx (src : Source)
  | and (src : Source)
  | bit (src : Source)
  | lda (src : Source)
  | ais (ii : Byte)
  | eor (src : Source)
  | adc (src : Source)
  | ora (src : Source)
  | add (src : Source)
  | bsr (rr : Byte)
  | ldx (src : Source)
  | aix (ii : Byte)
  | sta (m : MemMode)
  | jmp (m : MemMode)
  | jsr (m : MemMode)
  | stx (m : MemMode)
  deriving DecidableEq, Repr

end Sys2Proof
end

