-- ==== Sys2Proof/Decode.lean ====
section
/-! DEFINITION. The decoder (spec 30 R97 to R100), total on any bytes and rejecting by name, then the
encoder, written from the same object-code patterns (R81, R96 to R99; spec/opcode_table.json). -/

namespace Sys2Proof

/-- Why bytes spell no instruction. -/
inductive DecodeError where
  /-- A first byte with no row in Table 1 (R103). -/
  | illegalOpcode (b0 : Byte)
  /-- The prefix `$9E` and a second byte with no `$9E` row (R98, R103; 92 D25). -/
  | illegalPrefixed (b1 : Byte)
  /-- The bytes end inside an instruction. -/
  | truncated
  deriving DecidableEq, Repr

/-- The offending bytes, as `IllegalOpcode(bytes)` records them (R100, R277). -/
def DecodeError.bytes : DecodeError → List Byte
  | .illegalOpcode b0 => [b0]
  | .illegalPrefixed b1 => [0x9E#8, b1]
  | .truncated => []

/-- A decoded instruction and the bytes after it, or the reason for a rejection. -/
abbrev Decoded := Except DecodeError (Instr × List Byte)

/-! ## Operand bytes, in the order of the object code (R82) -/

/-- No operand byte. -/
def take0 (i : Instr) (bs : List Byte) : Decoded := .ok (i, bs)

/-- One operand byte. -/
def take1 (k : Byte → Instr) : List Byte → Decoded
  | b :: bs => .ok (k b, bs)
  | [] => .error .truncated

/-- Two operand bytes. -/
def take2 (k : Byte → Byte → Instr) : List Byte → Decoded
  | b :: c :: bs => .ok (k b c, bs)
  | [_] => .error .truncated
  | [] => .error .truncated

/-- A 16-bit operand, high byte first (R55). -/
def takeWord (k : Word → Instr) : List Byte → Decoded := take2 fun hi lo => k (wordOf hi lo)

/-! ## The columns of the operation blocks (R99) -/

/-- The read-modify-write operation of a low nibble, for the rows of one memory byte (R99). -/
def rmwColumn : Nat → Option (MemMode → Instr)
  | 0x0 => some .neg
  | 0x3 => some .com
  | 0x4 => some .lsr
  | 0x6 => some .ror
  | 0x7 => some .asr
  | 0x8 => some .lsl
  | 0x9 => some .rol
  | 0xA => some .dec
  | 0xC => some .inc
  | 0xD => some .tst
  | 0xF => some .clr
  | _ => none

/-- The reading register/memory operation of a low nibble (R99). -/
def readColumn : Nat → Option (Source → Instr)
  | 0x0 => some .sub
  | 0x1 => some .cmp
  | 0x2 => some .sbc
  | 0x3 => some .cpx
  | 0x4 => some .and
  | 0x5 => some .bit
  | 0x6 => some .lda
  | 0x8 => some .eor
  | 0x9 => some .adc
  | 0xA => some .ora
  | 0xB => some .add
  | 0xE => some .ldx
  | _ => none

/-- The operation of a low nibble on a memory operand: the readers, STA and STX (R99). -/
def memColumn (lo : Nat) : Option (MemMode → Instr) :=
  match lo with
  | 0x7 => some .sta
  | 0xF => some .stx
  | _ => (readColumn lo).map fun k m => k (.mem m)

/-- `memColumn` with JMP and JSR, which have no `SP` forms (R97, R98). -/
def memOrJumpColumn (lo : Nat) : Option (MemMode → Instr) :=
  match lo with
  | 0xC => some .jmp
  | 0xD => some .jsr
  | _ => memColumn lo

/-- The simple branch of a low nibble of row `2` (R97). -/
def branchColumn : Nat → Byte → Instr
  | 0x0 => .bra
  | 0x1 => .brn
  | 0x2 => .bhi
  | 0x3 => .bls
  | 0x4 => .bcc
  | 0x5 => .bcs
  | 0x6 => .bne
  | 0x7 => .beq
  | 0x8 => .bhcc
  | 0x9 => .bhcs
  | 0xA => .bpl
  | 0xB => .bmi
  | 0xC => .bmc
  | 0xD => .bms
  | 0xE => .bil
  | _ => .bih

/-! ## The rows of the opcode map (R97); `bad` is the rejection of the opcode -/

/-- Row `3`: DIR forms, and STHX. -/
def decodeRow3 (bad : DecodeError) (lo : Nat) : List Byte → Decoded :=
  match lo with
  | 0x1 => take2 fun dd rr => .cbeq (.dir dd) rr
  | 0x5 => take1 .sthx
  | 0xB => take2 fun dd rr => .dbnz (.dir dd) rr
  | _ => match rmwColumn lo with
    | some k => take1 fun dd => k (.dir dd)
    | none => fun _ => .error bad

/-- Row `4`: register `A`, and MUL, LDHX immediate, MOV direct to direct. -/
def decodeRow4 (lo : Nat) : List Byte → Decoded :=
  match lo with
  | 0x0 => take0 .nega
  | 0x1 => take2 .cbeqa
  | 0x2 => take0 .mul
  | 0x3 => take0 .coma
  | 0x4 => take0 .lsra
  | 0x5 => takeWord fun w => .ldhx (.imm w)
  | 0x6 => take0 .rora
  | 0x7 => take0 .asra
  | 0x8 => take0 .lsla
  | 0x9 => take0 .rola
  | 0xA => take0 .deca
  | 0xB => take1 .dbnza
  | 0xC => take0 .inca
  | 0xD => take0 .tsta
  | 0xE => take2 fun src dst => .mov (.dirDir src dst)
  | _ => take0 .clra

/-- Row `5`: register `X`, and DIV, LDHX direct, MOV direct to `X+`. -/
def decodeRow5 (lo : Nat) : List Byte → Decoded :=
  match lo with
  | 0x0 => take0 .negx
  | 0x1 => take2 .cbeqx
  | 0x2 => take0 .div
  | 0x3 => take0 .comx
  | 0x4 => take0 .lsrx
  | 0x5 => take1 fun dd => .ldhx (.dir dd)
  | 0x6 => take0 .rorx
  | 0x7 => take0 .asrx
  | 0x8 => take0 .lslx
  | 0x9 => take0 .rolx
  | 0xA => take0 .decx
  | 0xB => take1 .dbnzx
  | 0xC => take0 .incx
  | 0xD => take0 .tstx
  | 0xE => take1 fun src => .mov (.dirIxPlus src)
  | _ => take0 .clrx

/-- Row `6`: IX1 forms, and NSA, CPHX immediate, MOV immediate to direct. -/
def decodeRow6 (bad : DecodeError) (lo : Nat) : List Byte → Decoded :=
  match lo with
  | 0x1 => take2 fun ff rr => .cbeq (.ix1Plus ff) rr
  | 0x2 => take0 .nsa
  | 0x5 => takeWord fun w => .cphx (.imm w)
  | 0xB => take2 fun ff rr => .dbnz (.ix1 ff) rr
  | 0xE => take2 fun ii dst => .mov (.immDir ii dst)
  | _ => match rmwColumn lo with
    | some k => take1 fun ff => k (.ix1 ff)
    | none => fun _ => .error bad

/-- Row `7`: IX forms, and DAA, CPHX direct, MOV `X+` to direct. -/
def decodeRow7 (bad : DecodeError) (lo : Nat) : List Byte → Decoded :=
  match lo with
  | 0x1 => take1 fun rr => .cbeq .ixPlus rr
  | 0x2 => take0 .daa
  | 0x5 => take1 fun dd => .cphx (.dir dd)
  | 0xB => take1 fun rr => .dbnz .ix rr
  | 0xE => take1 fun dst => .mov (.ixPlusDir dst)
  | _ => match rmwColumn lo with
    | some k => take0 (k .ix)
    | none => fun _ => .error bad

/-- Row `8`: control; `$82` and `$8D` are undefined. -/
def decodeRow8 (bad : DecodeError) (lo : Nat) : List Byte → Decoded :=
  match lo with
  | 0x0 => take0 .rti
  | 0x1 => take0 .rts
  | 0x3 => take0 .swi
  | 0x4 => take0 .tap
  | 0x5 => take0 .tpa
  | 0x6 => take0 .pula
  | 0x7 => take0 .psha
  | 0x8 => take0 .pulx
  | 0x9 => take0 .pshx
  | 0xA => take0 .pulh
  | 0xB => take0 .pshh
  | 0xC => take0 .clrh
  | 0xE => take0 .stop
  | 0xF => take0 .wait
  | _ => fun _ => .error bad

/-- Row `9`: signed branches and control; `$96` is undefined, `$9E` the prefix. -/
def decodeRow9 (bad : DecodeError) (lo : Nat) : List Byte → Decoded :=
  match lo with
  | 0x0 => take1 .bge
  | 0x1 => take1 .blt
  | 0x2 => take1 .bgt
  | 0x3 => take1 .ble
  | 0x4 => take0 .txs
  | 0x5 => take0 .tsx
  | 0x7 => take0 .tax
  | 0x8 => take0 .clc
  | 0x9 => take0 .sec
  | 0xA => take0 .cli
  | 0xB => take0 .sei
  | 0xC => take0 .rsp
  | 0xD => take0 .nop
  | 0xF => take0 .txa
  | _ => fun _ => .error bad

/-- Row `A`: immediate forms, and AIS, BSR, AIX; `$AC` is undefined. -/
def decodeRowA (bad : DecodeError) (lo : Nat) : List Byte → Decoded :=
  match lo with
  | 0x7 => take1 .ais
  | 0xD => take1 .bsr
  | 0xF => take1 .aix
  | _ => match readColumn lo with
    | some k => take1 fun ii => k (.imm ii)
    | none => fun _ => .error bad

/-- Rows `B`, `E` (one operand byte), `C`, `D` (two) and `F` (none) of the register/memory block. -/
def decodeMemRow (bad : DecodeError) (column : Option (MemMode → Instr))
    (take : (MemMode → Instr) → List Byte → Decoded) : List Byte → Decoded :=
  match column with
  | some k => take k
  | none => fun _ => .error bad

/-- An opcode of page 1, given by its two nibbles (R97). -/
def decodePage1 (b0 : Byte) (hi lo : Nat) : List Byte → Decoded :=
  let bad := DecodeError.illegalOpcode b0
  match hi with
  | 0x0 => take2 fun dd rr =>
      if lo % 2 = 0 then .brset (Fin.ofNat 8 (lo / 2)) dd rr else .brclr (Fin.ofNat 8 (lo / 2)) dd rr
  | 0x1 => take1 fun dd =>
      if lo % 2 = 0 then .bset (Fin.ofNat 8 (lo / 2)) dd else .bclr (Fin.ofNat 8 (lo / 2)) dd
  | 0x2 => take1 (branchColumn lo)
  | 0x3 => decodeRow3 bad lo
  | 0x4 => decodeRow4 lo
  | 0x5 => decodeRow5 lo
  | 0x6 => decodeRow6 bad lo
  | 0x7 => decodeRow7 bad lo
  | 0x8 => decodeRow8 bad lo
  | 0x9 => decodeRow9 bad lo
  | 0xA => decodeRowA bad lo
  | 0xB => decodeMemRow bad (memOrJumpColumn lo) fun k => take1 fun dd => k (.dir dd)
  | 0xC => decodeMemRow bad (memOrJumpColumn lo) fun k => takeWord fun w => k (.ext w)
  | 0xD => decodeMemRow bad (memOrJumpColumn lo) fun k => takeWord fun w => k (.ix2 w)
  | 0xE => decodeMemRow bad (memOrJumpColumn lo) fun k => take1 fun ff => k (.ix1 ff)
  | _ => decodeMemRow bad (memOrJumpColumn lo) fun k => take0 (k .ix)

/-- The second byte after the prefix, given by its two nibbles (R98). -/
def decodePage2 (b1 : Byte) (hi lo : Nat) : List Byte → Decoded :=
  let bad := DecodeError.illegalPrefixed b1
  match hi with
  | 0x6 => match lo with
    | 0x1 => take2 fun ff rr => .cbeq (.sp1 ff) rr
    | 0xB => take2 fun ff rr => .dbnz (.sp1 ff) rr
    | _ => decodeMemRow bad (rmwColumn lo) fun k => take1 fun ff => k (.sp1 ff)
  | 0xD => decodeMemRow bad (memColumn lo) fun k => takeWord fun w => k (.sp2 w)
  | 0xE => decodeMemRow bad (memColumn lo) fun k => take1 fun ff => k (.sp1 ff)
  | _ => fun _ => .error bad

/-- The decoding algorithm of R100: the first byte, or the second when the first is the prefix `$9E`,
fixes the instruction; the operand bytes follow. -/
def decode : List Byte → Decoded
  | [] => .error .truncated
  | b0 :: bs =>
    if b0 = 0x9E#8 then
      match bs with
      | [] => .error .truncated
      | b1 :: cs => decodePage2 b1 (b1.toNat / 16) (b1.toNat % 16) cs
    else
      decodePage1 b0 (b0.toNat / 16) (b0.toNat % 16) bs

/-! ## The encoder -/

/-- Object code of the register/memory block with low nibble `k`, memory modes (R97, R98). -/
def encodeMem (k : Byte) : MemMode → List Byte
  | .dir dd => [0xB0#8 ||| k, dd]
  | .ext a => [0xC0#8 ||| k, hiByte a, loByte a]
  | .ix2 o => [0xD0#8 ||| k, hiByte o, loByte o]
  | .ix1 ff => [0xE0#8 ||| k, ff]
  | .ix => [0xF0#8 ||| k]
  | .sp2 o => [0x9E#8, 0xD0#8 ||| k, hiByte o, loByte o]
  | .sp1 ff => [0x9E#8, 0xE0#8 ||| k, ff]

/-- Object code of a reading register/memory instruction with low nibble `k`. -/
def encodeSource (k : Byte) : Source → List Byte
  | .imm ii => [0xA0#8 ||| k, ii]
  | .mem m => encodeMem k m

/-- Object code of the one-byte-operand block with low nibble `k` (R99); the modes the block does not
have give no bytes. -/
def encodeRmw (k : Byte) : MemMode → List Byte
  | .dir dd => [0x30#8 ||| k, dd]
  | .ix1 ff => [0x60#8 ||| k, ff]
  | .ix => [0x70#8 ||| k]
  | .sp1 ff => [0x9E#8, 0x60#8 ||| k, ff]
  | .ext _ => []
  | .ix2 _ => []
  | .sp2 _ => []

/-- The opcode `base + 2n` of a bit-number form (R96). -/
def bitOpcode (base : Byte) (n : Fin 8) : Byte := base + BitVec.ofNat 8 (2 * n.val)

/-- The object code of an instruction (Table 1, column Object Code). Of an ill-formed instruction it
says nothing. -/
def encode : Instr → List Byte
  | .brset n dd rr => [bitOpcode 0x00#8 n, dd, rr]
  | .brclr n dd rr => [bitOpcode 0x01#8 n, dd, rr]
  | .bset n dd => [bitOpcode 0x10#8 n, dd]
  | .bclr n dd => [bitOpcode 0x11#8 n, dd]
  | .bra rr => [0x20#8, rr]
  | .brn rr => [0x21#8, rr]
  | .bhi rr => [0x22#8, rr]
  | .bls rr => [0x23#8, rr]
  | .bcc rr => [0x24#8, rr]
  | .bcs rr => [0x25#8, rr]
  | .bne rr => [0x26#8, rr]
  | .beq rr => [0x27#8, rr]
  | .bhcc rr => [0x28#8, rr]
  | .bhcs rr => [0x29#8, rr]
  | .bpl rr => [0x2A#8, rr]
  | .bmi rr => [0x2B#8, rr]
  | .bmc rr => [0x2C#8, rr]
  | .bms rr => [0x2D#8, rr]
  | .bil rr => [0x2E#8, rr]
  | .bih rr => [0x2F#8, rr]
  | .neg m => encodeRmw 0x0#8 m
  | .cbeq (.dir dd) rr => [0x31#8, dd, rr]
  | .cbeq (.ix1Plus ff) rr => [0x61#8, ff, rr]
  | .cbeq .ixPlus rr => [0x71#8, rr]
  | .cbeq (.sp1 ff) rr => [0x9E#8, 0x61#8, ff, rr]
  | .com m => encodeRmw 0x3#8 m
  | .lsr m => encodeRmw 0x4#8 m
  | .sthx dd => [0x35#8, dd]
  | .ror m => encodeRmw 0x6#8 m
  | .asr m => encodeRmw 0x7#8 m
  | .lsl m => encodeRmw 0x8#8 m
  | .rol m => encodeRmw 0x9#8 m
  | .dec m => encodeRmw 0xA#8 m
  | .dbnz m rr => encodeRmw 0xB#8 m ++ [rr]
  | .inc m => encodeRmw 0xC#8 m
  | .tst m => encodeRmw 0xD#8 m
  | .clr m => encodeRmw 0xF#8 m
  | .nega => [0x40#8]
  | .cbeqa ii rr => [0x41#8, ii, rr]
  | .mul => [0x42#8]
  | .coma => [0x43#8]
  | .lsra => [0x44#8]
  | .ldhx (.imm w) => [0x45#8, hiByte w, loByte w]
  | .ldhx (.dir dd) => [0x55#8, dd]
  | .rora => [0x46#8]
  | .asra => [0x47#8]
  | .lsla => [0x48#8]
  | .rola => [0x49#8]
  | .deca => [0x4A#8]
  | .dbnza rr => [0x4B#8, rr]
  | .inca => [0x4C#8]
  | .tsta => [0x4D#8]
  | .mov (.dirDir src dst) => [0x4E#8, src, dst]
  | .mov (.dirIxPlus src) => [0x5E#8, src]
  | .mov (.immDir ii dst) => [0x6E#8, ii, dst]
  | .mov (.ixPlusDir dst) => [0x7E#8, dst]
  | .clra => [0x4F#8]
  | .negx => [0x50#8]
  | .cbeqx ii rr => [0x51#8, ii, rr]
  | .div => [0x52#8]
  | .comx => [0x53#8]
  | .lsrx => [0x54#8]
  | .rorx => [0x56#8]
  | .asrx => [0x57#8]
  | .lslx => [0x58#8]
  | .rolx => [0x59#8]
  | .decx => [0x5A#8]
  | .dbnzx rr => [0x5B#8, rr]
  | .incx => [0x5C#8]
  | .tstx => [0x5D#8]
  | .clrx => [0x5F#8]
  | .nsa => [0x62#8]
  | .cphx (.imm w) => [0x65#8, hiByte w, loByte w]
  | .cphx (.dir dd) => [0x75#8, dd]
  | .daa => [0x72#8]
  | .rti => [0x80#8]
  | .rts => [0x81#8]
  | .swi => [0x83#8]
  | .tap => [0x84#8]
  | .tpa => [0x85#8]
  | .pula => [0x86#8]
  | .psha => [0x87#8]
  | .pulx => [0x88#8]
  | .pshx => [0x89#8]
  | .pulh => [0x8A#8]
  | .pshh => [0x8B#8]
  | .clrh => [0x8C#8]
  | .stop => [0x8E#8]
  | .wait => [0x8F#8]
  | .bge rr => [0x90#8, rr]
  | .blt rr => [0x91#8, rr]
  | .bgt rr => [0x92#8, rr]
  | .ble rr => [0x93#8, rr]
  | .txs => [0x94#8]
  | .tsx => [0x95#8]
  | .tax => [0x97#8]
  | .clc => [0x98#8]
  | .sec => [0x99#8]
  | .cli => [0x9A#8]
  | .sei => [0x9B#8]
  | .rsp => [0x9C#8]
  | .nop => [0x9D#8]
  | .txa => [0x9F#8]
  | .sub src => encodeSource 0x0#8 src
  | .cmp src => encodeSource 0x1#8 src
  | .sbc src => encodeSource 0x2#8 src
  | .cpx src => encodeSource 0x3#8 src
  | .and src => encodeSource 0x4#8 src
  | .bit src => encodeSource 0x5#8 src
  | .lda src => encodeSource 0x6#8 src
  | .ais ii => [0xA7#8, ii]
  | .eor src => encodeSource 0x8#8 src
  | .adc src => encodeSource 0x9#8 src
  | .ora src => encodeSource 0xA#8 src
  | .add src => encodeSource 0xB#8 src
  | .bsr rr => [0xAD#8, rr]
  | .ldx src => encodeSource 0xE#8 src
  | .aix ii => [0xAF#8, ii]
  | .sta m => encodeMem 0x7#8 m
  | .jmp m => encodeMem 0xC#8 m
  | .jsr m => encodeMem 0xD#8 m
  | .stx m => encodeMem 0xF#8 m

/-! ## The opcode table's numbering -/

/-- The bytes of an instruction whose bits spec/opcode_table.json numbers: the table's word is
`b0:b1`, `b0` in bits 15..8 (spec 30, keys of the table), and a later word is numbered from bit 16 on.
A word lies in memory high byte first (R54, R55). A value of at most one byte is `b0` alone. Every bit
above `nbits` is 0. DEDUCED (log entry 12). -/
def tableWordBytes (nbits w : Nat) : List Byte :=
  let v := w % 2 ^ nbits
  if nbits ≤ 8 then [BitVec.ofNat 8 v, 0#8, 0#8, 0#8]
  else [BitVec.ofNat 8 (v / 2 ^ 8), BitVec.ofNat 8 v, BitVec.ofNat 8 (v / 2 ^ 24),
    BitVec.ofNat 8 (v / 2 ^ 16)]

/-- The instruction the decoder reads from an instruction whose bits are `w`. -/
def decodeTableWord (nbits w : Nat) : Option Instr :=
  match decode (tableWordBytes nbits w) with
  | .ok (i, _) => some i
  | .error _ => none

end Sys2Proof
end

