-- ==== Sys2Proof/Config.lean ====
section
/-! DEFINITION. What an implementation fixes: the parameters of spec 00 R4, and the values the spec leaves
open (`draw(n)` of R6), which are constants without a body: no proof can see what they are. -/

namespace Sys2Proof.Config

/-- The reset vector, high byte at this address and low byte at the next (R52, R290). -/
def resetVector : Word := 0xFFFE#16

/-- The default of `VecSWI` (R4, 92 D5; PRESUMED by the spec itself, 93 G4). -/
def defaultVecSwi : Word := 0xFFFC#16

/-- What an address that no memory entry lists reads as. DESIGN CHOICE, unsafe (log entry 2): the spec
leaves RAM after reset unspecified (R33, R291). -/
def unlistedByte : Byte := 0x00#8

/-- What the machine does at an opcode with no row in Table 1 (`IllegalOpcodeBehaviour`, R4, R277). -/
inductive IllegalOpcodeBehaviour where
  /-- The default: a fault that ends the run. -/
  | fault
  /-- The alternative of 93 G14: the reset sequence. -/
  | reset
  deriving DecidableEq, Repr

/-- What `MemMap` places in a region that is not RAM (R4, R51; 92 D12, D13). -/
inductive RegionKind where
  /-- ROM or flash: reads give the content; a write changes nothing (log entry 13). -/
  | rom
  /-- I/O registers: every access is the device's to see, and a read gives what the device answers,
  which may depend on all the accesses before it (R51, R69; log entry 24). -/
  | device
  /-- Nothing: a read gives an open value and a write is discarded (92 D12). -/
  | nothing
  /-- Marked `fault`: an access ends the run (92 D12). -/
  | fault
  deriving DecidableEq, Repr

/-- One region of `MemMap`: the addresses `lo` to `hi`, both included. -/
structure Region where
  lo : Word
  hi : Word
  kind : RegionKind
  deriving DecidableEq, Repr

/-- One entry of `IntSources` (R4, R268): the address of its vector, and whether it can end the
stopped state (`StopBehaviour`, R274, 92 D9). Position in the list is priority. -/
structure IntSource where
  vector : Word
  wakesStop : Bool
  deriving DecidableEq, Repr

/-- What RAM holds after a reset (`ResetState`, R4, R291). -/
inductive RamAfterReset where
  /-- The default of 92 D2: every byte is open. -/
  | unspecified
  /-- What it held: the CPU itself does not clear memory (R292). -/
  | kept
  /-- The bytes of a list of cells, and what an unlisted address reads as elsewhere. -/
  | given (cells : List (Nat × Byte))
  deriving DecidableEq, Repr

/-- `ResetState` (R4, R291): the value each register but `pc` has after a reset, `none` where it is
unspecified and so drawn, and what RAM holds. -/
structure ResetState where
  a : Option Byte
  x : Option Byte
  h : Option Byte
  sp : Option Word
  /-- V. -/
  v : Option Bool
  /-- The half-carry flag. -/
  half : Option Bool
  /-- I. -/
  i : Option Bool
  /-- N. -/
  n : Option Bool
  /-- Z. -/
  z : Option Bool
  /-- C. -/
  c : Option Bool
  ram : RamAfterReset
  deriving DecidableEq, Repr

/-- Whether programs may execute STOP (`StopBehaviour`, R4, R274; 92 D9). -/
inductive StopBehaviour where
  /-- The default: as WAIT, ended by reset or by a source that `IntSources` marks. -/
  | asWait
  /-- Programs that execute STOP are refused. -/
  | refuse
  deriving DecidableEq, Repr

/-- The open parameters of R4. They are data of the state that no step changes, so that a statement
about every state holds for every choice of them. -/
structure Params where
  /-- `VecSWI`. -/
  vecSwi : Word
  /-- `IntSources`, highest priority first (R268). -/
  intSources : List IntSource
  /-- `MemMap`: the regions that are not RAM; the first that holds an address decides. -/
  memMap : List Region
  /-- `ResetState`. -/
  resetState : ResetState
  /-- `IllegalOpcodeBehaviour`. -/
  illegalOpcode : IllegalOpcodeBehaviour
  /-- `StopBehaviour`. -/
  stopBehaviour : StopBehaviour
  /-- `CliDelay`: an instruction that clears I protects the instruction after it (R231, R263). -/
  cliDelay : Bool
  deriving DecidableEq, Repr

/-- `SP` after reset (R291; general knowledge of the spec, 93 G3, log entry 3). -/
def resetSp : Word := 0x00FF#16

/-- `H` after reset (R291, log entry 3). -/
def resetH : Byte := 0x00#8

/-- I after reset: interrupts are masked (R291, log entry 3). -/
def resetI : Bool := true

/-- The default of `ResetState` (92 D2): three values, and everything else unspecified. -/
def defaultResetState : ResetState where
  a := none
  x := none
  h := some resetH
  sp := some resetSp
  v := none
  half := none
  i := some resetI
  n := none
  z := none
  c := none
  ram := .unspecified

/-- The defaults of 92: `VecSWI` `$FFFC` (D5), no interrupt source (D5), all 64 KiB RAM (D13), `SP` =
`$00FF`, `H` = `$00`, I = 1 (D2), fault on an illegal opcode (D4), STOP as WAIT (D9). `CliDelay` has no
default in the spec (D6): DESIGN CHOICE false (log entry 9). -/
def defaultParams : Params where
  vecSwi := defaultVecSwi
  intSources := []
  memMap := []
  resetState := defaultResetState
  illegalOpcode := .fault
  stopBehaviour := .asWait
  cliDelay := false

/-- A vector lies in the page `$FFxx`, high and low byte both (R4: "`$FF00..$FFFE`", R52, R66). DESIGN CHOICE
(log entry 26): its address may be odd. R55 speaks of "the even (lower) address", while R4 and R268 ask for
the page only. -/
def vectorInPage (v : Word) : Bool := 0xFF00 ≤ v.toNat && v.toNat ≤ 0xFFFE

/-- The parameters keep what R4 fixes of them: every vector is in the vector page. -/
def Params.wf (p : Params) : Bool :=
  vectorInPage p.vecSwi && p.intSources.all fun src => vectorInPage src.vector

/-- The values the spec leaves open, each with the operands it may depend on (R303; 93 U1 to U8). -/
inductive Draw where
  /-- `CCR.V` after DAA: "U" "Undefined" (R232, U1). -/
  | daaV (a : Byte) (h c : Bool)
  /-- `A` after DAA outside the BCD table (R232, U2). -/
  | daaA (a : Byte) (h c : Bool)
  /-- `CCR.C` after DAA outside the table. -/
  | daaC (a : Byte) (h c : Bool)
  /-- `CCR.N` after DAA outside the table. -/
  | daaN (a : Byte) (h c : Bool)
  /-- `CCR.Z` after DAA outside the table. -/
  | daaZ (a : Byte) (h c : Bool)
  /-- `A` after DIV with a quotient over `$FF` or divisor 0 (R233, U3). -/
  | divA (h a x : Byte)
  /-- Register `H` after such a DIV. -/
  | divH (h a x : Byte)
  /-- `CCR.Z` after such a DIV. -/
  | divZ (h a x : Byte)
  /-- `A` after a reset during the run (R291, U7), where `ResetState` leaves it open; and so for the
  others. -/
  | resetA
  /-- `X` after a reset. -/
  | resetX
  /-- `H` after a reset. -/
  | resetH
  /-- The high byte of `SP` after a reset. -/
  | resetSpHigh
  /-- The low byte of `SP` after a reset. -/
  | resetSpLow
  /-- `CCR.I` after a reset. -/
  | resetI
  /-- `CCR.V` after a reset. -/
  | resetV
  /-- `CCR.H` after a reset. -/
  | resetHalf
  /-- `CCR.N` after a reset. -/
  | resetN
  /-- `CCR.Z` after a reset. -/
  | resetZ
  /-- `CCR.C` after a reset. -/
  | resetC
  /-- The RAM byte at an address after a reset (R291, U8). -/
  | resetRam (addr : Nat)
  /-- The byte read at an address where `MemMap` places nothing (R303, U9, 92 D12). -/
  | openBus (addr : Word)
  deriving DecidableEq, Repr

/-- `draw(1)`: an open bit, for each item and each moment (`State.cycles`) a value of its own. -/
opaque drawBit : Draw → Nat → Bool

/-- `draw(8)`: an open byte, likewise. -/
opaque drawByte : Draw → Nat → Byte

/-- One access that a device has seen: its address, and the byte stored, or none for a read (R51). -/
structure DeviceAccess where
  addr : Word
  stored : Option Byte
  deriving DecidableEq, Repr

/-- What the device at an address answers to a read, after the accesses it has seen (newest first), at
this moment. The spec describes no device (00_scope section 3, R282), so the answer is open (log entry
24). -/
opaque deviceByte : Word → List DeviceAccess → Nat → Byte

/-- How many bus cycles the interrupt sequence that ends a wait or a stop takes beyond one: the spec
leaves the number open (R253, R273, 92 D24). -/
opaque wakeCycles : Nat → Nat

end Sys2Proof.Config
end

