-- ==== Sys2Proof/Machine/Memory.lean ====
section
/-! DEFINITION. The memory of R33 and R50, 2^16 cells of 8 bits, as a list of (address, byte) pairs in one
canonical form: addresses strictly rising and below 2^16, no entry equal to what an unlisted address
reads as (`Config.unlistedByte`, log entry 2). -/

namespace Sys2Proof.Machine

/-- The cells that differ from `Config.unlistedByte`, lowest address first. -/
abbrev Memory := List Host.Cell

/-- The byte at an address. -/
def Memory.read : Memory → Nat → Byte
  | [], _ => Config.unlistedByte
  | (b, v) :: m, a => if a = b then v else Memory.read m a

/-- The cells in front of which nothing may stand: `v` at `a`, unless `v` is what an unlisted address
reads as. -/
def Memory.cons (a : Nat) (v : Byte) (m : Memory) : Memory :=
  if v = Config.unlistedByte then m else (a, v) :: m

/-- Store a byte, keeping the canonical form. -/
def Memory.write : Memory → Nat → Byte → Memory
  | [], a, v => Memory.cons a v []
  | (b, w) :: m, a, v =>
    if a < b then Memory.cons a v ((b, w) :: m)
    else if a = b then Memory.cons a v m
    else (b, w) :: Memory.write m a v

/-- The memory of `n` addresses from `lo` on whose byte at `a` is `f a`, in canonical form. -/
def Memory.tabulate (f : Nat → Byte) : Nat → Nat → Memory
  | _, 0 => []
  | lo, n + 1 => Memory.cons lo (f lo) (Memory.tabulate f (lo + 1) n)

/-- Every listed address is at least `lo`, rising, below 2^16, and holds a byte worth listing. -/
def Memory.wfFrom : Nat → Memory → Bool
  | _, [] => true
  | lo, (b, v) :: m =>
    lo ≤ b && b < 2 ^ 16 && (v != Config.unlistedByte) && Memory.wfFrom (b + 1) m

/-- The canonical form. -/
def Memory.wf (m : Memory) : Bool := Memory.wfFrom 0 m

end Sys2Proof.Machine
end

