-- ==== Sys2Proof/Machine/Timing.lean ====
section
/-! DEFINITION. The cycle code of every form (spec 20 R60 to R68; the tables of 40 to 47): its bus cycles in
order, one letter each. Its length is the instruction's duration (R304). The table stands beside the
meanings, which make the cycles one by one: the obligation BusCyclesMakeTheInstruction says that they agree. -/

namespace Sys2Proof.Machine

/-- The seven kinds of bus cycle (R60 to R67). -/
inductive BusCycle where
  /-- Program fetch (R61). -/
  | p
  /-- Byte read (R62). -/
  | r
  /-- Byte write (R63). -/
  | w
  /-- Stack write (R64). -/
  | s
  /-- Stack read (R65). -/
  | u
  /-- Vector fetch (R66). -/
  | v
  /-- Dummy read (R67). -/
  | d
  deriving DecidableEq, Repr

open BusCycle

/-- The memory forms of a reader (`k` = `r`) or of STA and STX (`k` = `w`) (R120). -/
def memCode (k : BusCycle) : MemMode → List BusCycle
  | .dir _ => [p, k, p]
  | .ext _ => [p, p, k, p]
  | .ix2 _ => [p, p, p, k]
  | .ix1 _ => [p, p, k]
  | .ix => [p, k]
  | .sp2 _ => [p, p, p, p, k]
  | .sp1 _ => [p, p, p, k]

/-- The forms of a reader (R120). -/
def sourceCode : Source → List BusCycle
  | .imm _ => [p, p]
  | .mem m => memCode r m

/-- The memory forms of a read-modify-write instruction (R140); the modes it does not have follow the
same pattern. -/
def rmwCode : MemMode → List BusCycle
  | .dir _ => [p, r, w, p]
  | .ext _ => [p, p, r, w, p]
  | .ix2 _ => [p, p, p, r, w]
  | .ix1 _ => [p, p, r, w]
  | .ix => [p, r, w]
  | .sp2 _ => [p, p, p, p, r, w]
  | .sp1 _ => [p, p, p, r, w]

/-- The forms of DBNZ (R194). -/
def dbnzCode : MemMode → List BusCycle
  | .dir _ => [p, p, r, w, p]
  | .ext _ => [p, p, p, r, w, p]
  | .ix2 _ => [p, p, p, r, w, p]
  | .ix1 _ => [p, p, r, w, p]
  | .ix => [p, r, w, p]
  | .sp2 _ => [p, p, p, p, r, w, p]
  | .sp1 _ => [p, p, p, r, w, p]

/-- The forms of CBEQ (R193; the SP1 code is that of 90 C3). -/
def cbeqCode : CbeqMode → List BusCycle
  | .dir _ => [p, p, r, d, p]
  | .ix1Plus _ => [p, p, r, d, p]
  | .ixPlus => [p, r, d, p]
  | .sp1 _ => [p, p, p, r, d, p]

/-- The forms of JMP (R201). -/
def jmpCode : MemMode → List BusCycle
  | .dir _ => [p, p]
  | .ext _ => [p, p, p]
  | .ix2 _ => [p, p, d, p]
  | .ix1 _ => [p, d, p]
  | .ix => [p, p]
  | .sp2 _ => [p, p, p, d, p]
  | .sp1 _ => [p, p, d, p]

/-- The forms of JSR (R202). -/
def jsrCode : MemMode → List BusCycle
  | .dir _ => [p, s, s, p]
  | .ext _ => [p, p, s, s, p]
  | .ix2 _ => [p, p, s, s, d, p]
  | .ix1 _ => [p, s, s, d, p]
  | .ix => [p, s, s, p]
  | .sp2 _ => [p, p, p, s, s, d, p]
  | .sp1 _ => [p, p, s, s, d, p]

/-- LDHX and CPHX (R212, R213; the DIR code is that of 90 C6). -/
def source16Code : Source16 → List BusCycle
  | .imm _ => [p, p, p]
  | .dir _ => [p, r, r, p]

/-- MOV (R214). -/
def moveCode : MoveForm → List BusCycle
  | .dirDir _ _ => [p, r, p, w, p]
  | .dirIxPlus _ => [p, r, w, p]
  | .immDir _ _ => [p, p, w, p]
  | .ixPlusDir _ => [p, r, w, p]

/-- The cycle code of an instruction (column "Cycle code" of the tables of 40 to 47). -/
def cycleCode : Instr → List BusCycle
  | .brset _ _ _ | .brclr _ _ _ => [p, r, p, d, p]
  | .bset _ _ | .bclr _ _ => [p, r, w, p]
  | .bra _ | .brn _ | .bhi _ | .bls _ | .bcc _ | .bcs _ | .bne _ | .beq _ | .bhcc _ | .bhcs _
  | .bpl _ | .bmi _ | .bmc _ | .bms _ | .bil _ | .bih _ | .bge _ | .blt _ | .bgt _ | .ble _
  | .dbnza _ | .dbnzx _ => [p, d, p]
  | .neg m | .com m | .lsr m | .ror m | .asr m | .lsl m | .rol m | .dec m | .inc m => rmwCode m
  | .tst m => memCode r m
  | .clr m => memCode w m
  | .cbeq m _ => cbeqCode m
  | .dbnz m _ => dbnzCode m
  | .cbeqa _ _ | .cbeqx _ _ => [p, p, d, p]
  | .sthx _ => [p, w, w, p]
  | .ldhx src | .cphx src => source16Code src
  | .mov f => moveCode f
  | .nega | .coma | .lsra | .rora | .asra | .lsla | .rola | .deca | .inca | .tsta | .clra
  | .negx | .comx | .lsrx | .rorx | .asrx | .lslx | .rolx | .decx | .incx | .tstx | .clrx
  | .clrh => [p]
  | .mul => [p, p, d, d, d]
  | .div => [p, d, p, d, d, d, d]
  | .nsa => [p, p, d]
  | .daa => [p, p]
  | .rti => [p, u, u, u, u, u, p]
  | .rts => [p, u, u, p]
  | .swi => [p, s, s, s, s, s, v, v, p]
  | .tap | .cli | .sei => [p, d]
  | .tpa | .tax | .txa | .clc | .sec | .rsp | .nop | .stop | .wait => [p]
  | .pula | .pulx | .pulh => [p, u]
  | .psha | .pshx | .pshh => [p, s]
  | .txs | .tsx => [p, p]
  | .sub src | .cmp src | .sbc src | .cpx src | .and src | .bit src | .lda src | .eor src
  | .adc src | .ora src | .add src | .ldx src => sourceCode src
  | .ais _ | .aix _ => [p, p]
  | .bsr _ => [p, s, s, p]
  | .sta m | .stx m => memCode w m
  | .jmp m => jmpCode m
  | .jsr m => jsrCode m

/-- The duration of an instruction in bus cycles (R304). -/
def cycleCount (i : Instr) : Nat := (cycleCode i).length

/-- The interrupt sequence `psssssvvp` (R264). -/
def entryCode : List BusCycle := [p, s, s, s, s, s, v, v, p]

/-- The CPU's part of the reset sequence, `vvp` (R290). -/
def resetCode : List BusCycle := [v, v, p]

end Sys2Proof.Machine
end

