-- ==== Sys2Proof/Machine/State.lean ====
section
/-! DEFINITION. The state of the machine (spec 10 R20 to R35) as plain data, the reasons a step can stop,
and the state after reset (R290, R291). -/

namespace Sys2Proof.Machine

/-- The six flags of the condition code register (R26). Bits 6 and 5 are the constant 1 (R27); they are
no state, and `Ccr.toByte` supplies them. -/
structure Ccr where
  /-- V, overflow, bit 7. -/
  v : Bool
  /-- H, half-carry, bit 4. -/
  h : Bool
  /-- I, interrupt mask, bit 3. -/
  i : Bool
  /-- N, negative, bit 2. -/
  n : Bool
  /-- Z, zero, bit 1. -/
  z : Bool
  /-- C, carry/borrow, bit 0. -/
  c : Bool
  deriving DecidableEq, Repr

/-- The run state (R31). -/
inductive RunState where
  | running
  | waiting
  | stopped
  deriving DecidableEq, Repr

/-- What the outside presents to the CPU at one instruction boundary (R32). -/
structure Inputs where
  /-- The reset request (R292): `some 0` takes the CPU at this boundary, `some k` after `k` bus cycles of
  the sequence that starts here, in the middle of it. Beyond the end of that sequence it asks for
  nothing (log entry 16). -/
  resetRequest : Option Nat
  /-- The reset requests that fall into the reset sequence this step makes, if it makes one (R292): each is the
  number of bus cycles, below three, of that sequence before it begins again. The first that is not below
  three asks for nothing, and so do those after it (log entry 16). -/
  resetAgain : List Nat
  /-- The pending-request bit of each entry of `IntSources`, by position. -/
  requests : List Bool
  /-- The level of the IRQ pin. -/
  irqPin : Bool
  deriving DecidableEq, Repr

/-- One bus cycle as the bus shows it (R60): its kind, its address, and the byte it moves (R50), to memory
or a device in a `w` or `s` cycle and to the CPU in the others. -/
structure BusAccess where
  kind : BusCycle
  addr : Word
  data : Byte
  deriving DecidableEq, Repr

/-- The state of the machine. -/
structure State where
  /-- The accumulator (R21). -/
  a : Byte
  /-- Index register, low byte (R22). -/
  x : Byte
  /-- Index register, high byte (R22). -/
  h : Byte
  /-- Stack pointer: the next available location (R23). -/
  sp : Word
  /-- Architectural program counter: the address of the opcode of the instruction being executed or
  about to be (R25). -/
  pc : Word
  /-- Condition code register (R26). -/
  ccr : Ccr
  /-- The instruction buffer: the opcode byte of the next instruction, already fetched (R30). -/
  ibuf : Byte
  /-- The run state (R31). -/
  run : RunState
  /-- The last instruction cleared I under `CliDelay`: no interrupt is recognised at the boundary that
  follows it (R231, R263). -/
  inhibit : Bool
  /-- Memory (R33, R50). -/
  mem : Memory
  /-- The accesses the devices of `MemMap` have seen, newest first: the effect of reading and writing I/O
  registers (R51, R69; log entry 24). -/
  io : List Config.DeviceAccess
  /-- The inputs as they stand (R32). -/
  inputs : Inputs
  /-- The inputs of the boundaries to come, the next first: the oracle of R32. When it is empty the
  inputs keep their levels. -/
  schedule : List Inputs
  /-- The parameters of R4. No step changes them. -/
  params : Config.Params
  /-- Bus cycles made so far (R304, R305), which also tell one draw from the next. -/
  cycles : Nat
  /-- The bus cycles made since the last boundary, the first first (R60, R69): the model's own record (log
  entry 25). -/
  bus : List BusAccess
  deriving DecidableEq, Repr

/-- Why the machine stops with a fault. -/
inductive Fault where
  /-- `IllegalOpcode(bytes)` at address `pc` (R103, R277; 92 D4, D25). Raised by a step whose instruction
  bytes have no row in Table 1, where the parameter `IllegalOpcodeBehaviour` is `fault`. Safe: no
  statement can be proved past it. -/
  | illegalOpcode (pc : Word) (bytes : List Byte)
  /-- A bus cycle at an address that `MemMap` marks `fault` (92 D12), in the sequence that starts at `pc`.
  Raised by a step; no state changes. Safe: no statement can be proved past it. -/
  | markedAddress (pc addr : Word)
  deriving DecidableEq, Repr

/-- Why the model does not go on with an instruction. -/
inductive Refusal where
  /-- The instruction has no meaning in the model yet; raised by an arm of `exec`. Safe: nothing follows
  it. No arm raises it now. -/
  | notModelled (mnemonic : String)
  /-- STOP in a machine whose `StopBehaviour` refuses programs that execute it (R4, R274; 92 D9). Raised
  by STOP. Safe: nothing follows it. -/
  | stopNotPermitted
  deriving DecidableEq, Repr

/-! ## Updates of one field -/

def State.setA (s : State) (v : Byte) : State := { s with a := v }
def State.setX (s : State) (v : Byte) : State := { s with x := v }
def State.setH (s : State) (v : Byte) : State := { s with h := v }
def State.setSp (s : State) (v : Word) : State := { s with sp := v }
def State.setPc (s : State) (v : Word) : State := { s with pc := v }
def State.setCcr (s : State) (v : Ccr) : State := { s with ccr := v }
def State.setIbuf (s : State) (v : Byte) : State := { s with ibuf := v }
def State.setRun (s : State) (v : RunState) : State := { s with run := v }
def State.setInhibit (s : State) (v : Bool) : State := { s with inhibit := v }
def State.setMem (s : State) (v : Memory) : State := { s with mem := v }
def State.setIo (s : State) (v : List Config.DeviceAccess) : State := { s with io := v }
def State.setInputs (s : State) (v : Inputs) : State := { s with inputs := v }
def State.setSchedule (s : State) (v : List Inputs) : State := { s with schedule := v }
def State.setCycles (s : State) (v : Nat) : State := { s with cycles := v }
def State.setBus (s : State) (v : List BusAccess) : State := { s with bus := v }

/-! ## Reset -/

/-- Inputs at rest: no reset request, no interrupt request, IRQ pin low (log entry 7). -/
def Inputs.quiet : Inputs := { resetRequest := none, resetAgain := [], requests := [], irqPin := false }

/-- The content of the reset vector in a memory that lists nothing, and the opcode it points at. -/
def resetPc : Word :=
  wordOf (Memory.read [] Config.resetVector.toNat) (Memory.read [] (Config.resetVector + 1).toNat)

/-- The machine right after the reset sequence `vvp` (R290, R291): `pc` from the vector, `ibuf` the byte
there, `SP` = `$00FF`, `H` = `$00`, I = 1, running. `A`, `X`, V, H, N, Z and C have no reset value in the
spec: DESIGN CHOICE 0 (log entry 1). -/
def State.reset : State where
  a := 0x00#8
  x := 0x00#8
  h := Config.resetH
  sp := Config.resetSp
  pc := resetPc
  ccr := { v := false, h := false, i := Config.resetI, n := false, z := false,
           c := false }
  ibuf := Memory.read [] resetPc.toNat
  run := .running
  inhibit := false
  mem := []
  io := []
  inputs := Inputs.quiet
  schedule := []
  params := Config.defaultParams
  cycles := 3
  bus := []

end Sys2Proof.Machine
end

