-- ==== Sys2Proof/Machine/Bus.lean ====
section
/-! DEFINITION. The bus (spec 20 R50 to R74; 00 R6): what an address holds, and one bus cycle at a time. Every
access of the machine is one `State.access`, so that a read sees every access made before it, those of its
own instruction among them (R69). -/

namespace Sys2Proof.Machine

/-! ## What an address holds -/

/-- What `MemMap` places at an address: the first region that holds it, or RAM (92 D12, D13). -/
def regionKindAt : List Config.Region → Word → Option Config.RegionKind
  | [], _ => none
  | r :: rs, a => if r.lo.toNat ≤ a.toNat ∧ a.toNat ≤ r.hi.toNat then some r.kind else regionKindAt rs a

/-- A store to the address lands: it is RAM. -/
def State.isRam (s : State) (addr : Word) : Bool := regionKindAt s.params.memMap addr == none

/-- What a read of the address gives at this moment, `MemRead(addr, 1)` (R6). RAM and ROM give their content,
a device what it answers after the accesses it has seen (R51, R69); where `MemMap` places nothing the byte
is open, and at a marked address it is never used (92 D12). -/
def State.read (s : State) (addr : Word) : Byte :=
  match regionKindAt s.params.memMap addr with
  | none => s.mem.read addr.toNat
  | some .rom => s.mem.read addr.toNat
  | some .device => Config.deviceByte addr s.io s.cycles
  | some .nothing => Config.drawByte (.openBus addr) s.cycles
  | some .fault => Config.drawByte (.openBus addr) s.cycles

/-- What a store of `v` does to memory, `MemWrite(addr, 1, v)` (R6). Only RAM takes the byte: a store to
nothing is discarded (92 D12), one to ROM changes nothing (log entry 13), and one to a device is the
device's (`State.access`). -/
def State.write (s : State) (addr : Word) (v : Byte) : State :=
  if s.isRam addr then s.setMem (s.mem.write addr.toNat v) else s

/-! ## One bus cycle -/

/-- The byte that a cycle stores: `w` and `s` cycles store, no other does (R61 to R67). -/
def BusAccess.stored (c : BusAccess) : Option Byte :=
  match c.kind with
  | .w => some c.data
  | .s => some c.data
  | .p => none
  | .r => none
  | .u => none
  | .v => none
  | .d => none

/-- One bus cycle (R60, R69): what it stores is in memory, the device at its address has seen it, it is
counted (R304) and recorded, all before the next cycle. -/
def State.access (s : State) (c : BusAccess) : State :=
  let t := match c.stored with
    | some v => s.write c.addr v
    | none => s
  let seen := if regionKindAt s.params.memMap c.addr == some .device then ⟨c.addr, c.stored⟩ :: s.io else s.io
  ((t.setIo seen).setCycles (s.cycles + 1)).setBus (s.bus ++ [c])

/-- After a cycle that reads; the byte it reads is `s.read addr`. -/
def State.load (s : State) (k : BusCycle) (addr : Word) : State := s.access ⟨k, addr, s.read addr⟩

/-- After a cycle that stores. -/
def State.store (s : State) (k : BusCycle) (addr : Word) (v : Byte) : State := s.access ⟨k, addr, v⟩

/-- Two cycles that read a 16-bit quantity, high byte at `addr`, low byte at the next address modulo 2^16
(R53, R55, R57): the value, and the state after them. -/
def State.loadWord (s : State) (k : BusCycle) (addr : Word) : Word × State :=
  let t := s.load k addr
  (wordOf (s.read addr) (t.read (addr + 1#16)), t.load k (addr + 1#16))

/-- Two cycles that store a 16-bit quantity, the high byte first (R57). -/
def State.storeWord (s : State) (k : BusCycle) (addr v : Word) : State :=
  (s.store k addr (hiByte v)).store k (addr + 1#16) (loByte v)

/-- A `d` cycle: a read whose byte is ignored (R67). -/
def State.dummy (s : State) (addr : Word) : State := s.load .d addr

/-- As many `d` cycles in a row at one address. -/
def State.dummies (s : State) (addr : Word) : Nat → State
  | 0 => s
  | n + 1 => (s.dummies addr n).dummy addr

/-- A `p` cycle for the program byte `n` after the opcode (R25, R61). -/
def State.fetchByte (s : State) (n : Nat) : State := s.load .p (s.pc + BitVec.ofNat 16 n)

/-- The `p` cycles for the first `n` program bytes after the opcode, whether the instruction has them or they
are surplus (R61; 92 D14). -/
def State.fetch (s : State) : Nat → State
  | 0 => s
  | n + 1 => (s.fetch n).fetchByte (n + 1)

/-- The first `n` program bytes after the opcode, and a `d` cycle at the last of them (R67, R68). -/
def State.fetchThenDummy (s : State) (n : Nat) : State := (s.fetch n).dummy (s.pc + BitVec.ofNat 16 n)

/-! ## Sequences of bus cycles -/

/-- The state in which just these cycles have been made: memory, devices, count and record have them, and the
registers are still those of `s` (R69). A reset that falls into a sequence finds this state, and overwrites
the registers (R292). -/
def State.partWay (s : State) (bus : List BusAccess) : State := bus.foldl State.access s

/-- The first access at an address that `MemMap` marks `fault` (92 D12). -/
def State.firstMarked (s : State) (bus : List BusAccess) : Option Word :=
  (bus.find? fun b => regionKindAt s.params.memMap b.addr == some .fault).map BusAccess.addr

end Sys2Proof.Machine
end

