-- ==== Sys2Proof/Machine/Flags.lean ====
section
/-! DEFINITION. The condition code register as a byte (spec 10 R26 to R29) and every flag computation of
the spec (R36 to R42; 41 R142 to R152). An operation takes its operands and the old flags and answers
the result with the new flags. The formulas are the spec's own general knowledge (93 G1, G5, G6, G12,
G17; log entry 8). -/

namespace Sys2Proof.Machine

/-- The CCR as a byte, `V:1:1:H:I:N:Z:C` (R26, R27, R29). -/
def Ccr.toByte (f : Ccr) : Byte :=
  BitVec.ofBool f.v ++ 0b11#2 ++ BitVec.ofBool f.h ++ BitVec.ofBool f.i ++ BitVec.ofBool f.n ++
    BitVec.ofBool f.z ++ BitVec.ofBool f.c

/-- Writing a byte to the CCR discards its bits 6 and 5 (R27, R29). -/
def Ccr.ofByte (b : Byte) : Ccr where
  v := b.getLsbD 7
  h := b.getLsbD 4
  i := b.getLsbD 3
  n := b.getLsbD 2
  z := b.getLsbD 1
  c := b.getLsbD 0

/-- `nz8(r)` (R36). -/
def nz8 (r : Byte) (f : Ccr) : Ccr := { f with n := r.msb, z := decide (r = 0#8) }

/-- `nz16(r)` (R41). -/
def nz16 (r : Word) (f : Ccr) : Ccr := { f with n := r.msb, z := decide (r = 0#16) }

/-- `logic8(r)` (R42): V cleared, N and Z from the byte. -/
def logic8 (r : Byte) (f : Ccr) : Ccr := nz8 r { f with v := false }

/-- V cleared, N and Z from the word: LDHX and STHX (R213, R222). -/
def logic16 (r : Word) (f : Ccr) : Ccr := nz16 r { f with v := false }

/-- The flags of CLR in every form: V = 0, N = 0, Z = 1 (R143). -/
def clearFlags (f : Ccr) : Ccr := { f with v := false, n := false, z := true }

/-- `add8(a, m, cin)` (R37). -/
def add8 (a m : Byte) (cin : Bool) (f : Ccr) : Byte × Ccr :=
  let s := a.toNat + m.toNat + cin.toNat
  let r := BitVec.ofNat 8 s
  (r, nz8 r { f with
    c := decide (255 < s)
    h := decide (15 < a.toNat % 16 + m.toNat % 16 + cin.toNat)
    v := a.msb == m.msb && r.msb != a.msb })

/-- `sub8(a, m, bin)` (R38). -/
def sub8 (a m : Byte) (bin : Bool) (f : Ccr) : Byte × Ccr :=
  let r := a - m - BitVec.ofNat 8 bin.toNat
  (r, nz8 r { f with
    c := decide (a.toNat < m.toNat + bin.toNat)
    v := a.msb != m.msb && r.msb != a.msb })

/-- `sub16(a, m)` (R39). -/
def sub16 (a m : Word) (f : Ccr) : Word × Ccr :=
  let r := a - m
  (r, nz16 r { f with
    c := decide (a.toNat < m.toNat)
    v := a.msb != m.msb && r.msb != a.msb })

/-- A bitwise result with `logic8` flags (R42). -/
def logicResult (r : Byte) (f : Ccr) : Byte × Ccr := (r, logic8 r f)

/-- The flags of a shift or rotate with result `r` and carry `c`: N and Z from `r`, then V = N xor C
from the new N and C (R40). -/
def shiftResult (r : Byte) (c : Bool) (f : Ccr) : Byte × Ccr :=
  (r, nz8 r { f with c := c, v := r.msb != c })

/-- LSL (= ASL): `v[6:0]:0` (R40, R147). -/
def lsl8 (v : Byte) (f : Ccr) : Byte × Ccr := shiftResult (v <<< 1) (v.getLsbD 7) f

/-- ROL: `v[6:0]:c` (R40, R150). -/
def rol8 (v : Byte) (f : Ccr) : Byte × Ccr :=
  shiftResult (v <<< 1 ||| BitVec.ofNat 8 f.c.toNat) (v.getLsbD 7) f

/-- LSR: `0:v[7:1]` (R40, R148). -/
def lsr8 (v : Byte) (f : Ccr) : Byte × Ccr := shiftResult (v >>> 1) (v.getLsbD 0) f

/-- ROR: `c:v[7:1]` (R40, R151). -/
def ror8 (v : Byte) (f : Ccr) : Byte × Ccr :=
  shiftResult (v >>> 1 ||| BitVec.ofNat 8 f.c.toNat <<< 7) (v.getLsbD 0) f

/-- ASR: `v[7]:v[7:1]` (R40, R142). -/
def asr8 (v : Byte) (f : Ccr) : Byte × Ccr := shiftResult (v.sshiftRight 1) (v.getLsbD 0) f

/-- COM: `v xor $FF`, V = 0, C = 1 (R144). -/
def com8 (v : Byte) (f : Ccr) : Byte × Ccr :=
  let r := v ^^^ 0xFF#8
  (r, nz8 r { f with v := false, c := true })

/-- NEG: `sub8(0, v, 0)` (R149). -/
def neg8 (v : Byte) (f : Ccr) : Byte × Ccr := sub8 0#8 v false f

/-- DEC: V exactly for the operand `$80`; C untouched (R145). -/
def dec8 (v : Byte) (f : Ccr) : Byte × Ccr :=
  let r := v - 1#8
  (r, nz8 r { f with v := decide (v = 0x80#8) })

/-- INC: V exactly for the operand `$7F`; C untouched (R146). -/
def inc8 (v : Byte) (f : Ccr) : Byte × Ccr :=
  let r := v + 1#8
  (r, nz8 r { f with v := decide (v = 0x7F#8) })

/-- `DaaTable` (R232): the correction byte and the resulting C for the nine combinations that adding
two BCD bytes can leave, and nothing for any other. -/
def daaTable (c : Bool) (hi : Nat) (half : Bool) (lo : Nat) : Option (Byte × Bool) :=
  match c, half with
  | false, false =>
    if hi ≤ 9 ∧ lo ≤ 9 then some (0x00#8, false)
    else if hi ≤ 8 ∧ 10 ≤ lo then some (0x06#8, false)
    else if 10 ≤ hi ∧ lo ≤ 9 then some (0x60#8, true)
    else some (0x66#8, true)
  | false, true =>
    if hi ≤ 9 ∧ lo ≤ 3 then some (0x06#8, false)
    else if 10 ≤ hi ∧ lo ≤ 3 then some (0x66#8, true)
    else none
  | true, false =>
    if hi ≤ 2 ∧ lo ≤ 9 then some (0x60#8, true)
    else if hi ≤ 2 ∧ 10 ≤ lo then some (0x66#8, true)
    else none
  | true, true =>
    if hi ≤ 3 ∧ lo ≤ 3 then some (0x66#8, true) else none

end Sys2Proof.Machine
end

