-- ==== Sys2Proof/Machine/Ops.lean ====
section
/-! DEFINITION. The named operations over registers and the stack (spec 00 R6; 20 R58, R59), the move to the
next instruction with its prefetch (10 R30), taking an exception and returning from one (60 R264, R269; 47 R250,
R252). Their accesses are bus cycles, made one after the other (Bus.lean). -/

namespace Sys2Proof.Machine

/-! ## Registers -/

/-- `H:X` as one 16-bit value (R22). -/
def State.hx (s : State) : Word := wordOf s.h s.x

/-- `HX <- v` (R6). -/
def State.setHx (s : State) (v : Word) : State := (s.setH (hiByte v)).setX (loByte v)

/-- The flags with another interrupt mask. -/
def Ccr.withI (f : Ccr) (i : Bool) : Ccr := { f with i := i }

/-- The flags with another carry. -/
def Ccr.withC (f : Ccr) (c : Bool) : Ccr := { f with c := c }

/-! ## Stack -/

/-- `Push(v)`, one `s` cycle: store, then decrement (R58, R64). -/
def State.push (s : State) (v : Byte) : State := (s.store .s s.sp v).setSp (s.sp - 1#16)

/-- `Pull()`, one `u` cycle: increment, then read (R59, R65). -/
def State.pull (s : State) : Byte × State :=
  let t := s.setSp (s.sp + 1#16)
  (t.read t.sp, t.load .u t.sp)

/-- A return address goes low byte first, so that it lies high byte at the lower address (R55, R200). -/
def State.pushWord (s : State) (v : Word) : State := (s.push (loByte v)).push (hiByte v)

/-- The high byte is pulled first (R203). -/
def State.pullWord (s : State) : Word × State :=
  let hi := s.pull
  let lo := hi.2.pull
  (wordOf hi.1 lo.1, lo.2)

/-! ## The next instruction -/

/-- Control goes to `target`: the last `p` cycle fetches the opcode there into the instruction buffer
(R30, R61). A store made before it is seen, one made after it is not (R72). -/
def State.goto (s : State) (target : Word) : State :=
  ((s.load .p target).setPc target).setIbuf (s.read target)

/-- `pc <- pc + len` (R6, R25), with the prefetch of the next opcode. -/
def State.advance (s : State) (len : Nat) : State := s.goto (s.pc + BitVec.ofNat 16 len)

/-- The next opcode is one byte on; `n` `d` cycles after its fetch read there again (R67, R68). -/
def State.advanceThenDummies (s : State) (n : Nat) : State := (s.advance 1).dummies (s.pc + 1#16) n

/-- A branch of `len` bytes with offset `rr`: relative to the next instruction (R95, R170). -/
def State.branch (s : State) (taken : Bool) (len : Nat) (rr : Byte) : State :=
  let following := s.pc + BitVec.ofNat 16 len
  s.goto (if taken then following + sext16 rr else following)

/-! ## Operations of a register with the flags -/

/-- `A` and the flags take the result of an operation. -/
def State.putA (s : State) (p : Byte × Ccr) : State := (s.setA p.1).setCcr p.2

/-- `X` and the flags take the result of an operation; `H` stays (R22). -/
def State.putX (s : State) (p : Byte × Ccr) : State := (s.setX p.1).setCcr p.2

/-! ## Exceptions -/

/-- TAKING AN EXCEPTION: the entry sequence `psssssvvp` of R264, shared by SWI and hardware interrupts. After
a surplus program fetch the return address (low, high), `X`, `A` and the CCR as it was are pushed, I is set,
and `pc` is loaded from the vector, high byte first. `H` is not saved (R266). For the entry that ends a wait
or a stop the nine cycles are a DESIGN CHOICE (log entry 22). -/
def State.takeException (s : State) (ret vector : Word) : State :=
  let t := ((((s.fetch 1).pushWord ret).push s.x).push s.a).push s.ccr.toByte
  let target := (t.setCcr (s.ccr.withI true)).loadWord .v vector
  target.2.goto target.1

/-- I went from 1 to 0 in an instruction: under `CliDelay` the next boundary recognises no interrupt
(R231, R263; 92 D6). -/
def State.noteMask (s : State) (before : Bool) : State :=
  s.setInhibit (s.params.cliDelay && before && !s.ccr.i)

/-- RETURN FROM AN EXCEPTION, `puuuuup` (R250, R269): CCR, `A`, `X`, PCH, PCL are pulled, in the reverse of
the order of entry. `H` stays (R266). -/
def State.returnFromException (s : State) : State :=
  let f := (s.fetch 1).pull
  let a := f.2.pull
  let x := a.2.pull
  let ret := x.2.pullWord
  ((((ret.2.setCcr (Ccr.ofByte f.1)).setA a.1).setX x.1).noteMask s.ccr.i).goto ret.1

/-- The halt of WAIT and STOP: I is cleared and the run state leaves `running` (R251, R253). -/
def State.halt (s : State) (r : RunState) : State := (s.setCcr (s.ccr.withI false)).setRun r

end Sys2Proof.Machine
end

