-- ==== Sys2Proof/Machine/Boundary.lean ====
section
/-! DEFINITION. What happens between instructions (spec 60 R262 to R274; 70 R290 to R292): the inputs of the
boundary are taken, then reset, an interrupt, or the next instruction. -/

namespace Sys2Proof.Machine

/-- The inputs of this boundary: the next of the schedule, or the levels as they stand (R32, 92 D19). The
record of bus cycles starts afresh. -/
def State.sampleInputs (s : State) : State :=
  match s.schedule with
  | [] => s.setBus []
  | e :: es => ((s.setInputs e).setSchedule es).setBus []

/-- Memory after a reset (R291, R292): ROM keeps its content, and RAM is what `ResetState` says, open by
default (92 D2). -/
def State.memoryAfterReset (s : State) : Memory :=
  match s.params.resetState.ram with
  | .kept => s.mem
  | .unspecified =>
    Memory.tabulate (fun a => if s.isRam (BitVec.ofNat 16 a) then Config.drawByte (.resetRam a) s.cycles
      else s.mem.read a) 0 (2 ^ 16)
  | .given m =>
    Memory.tabulate (fun a => if s.isRam (BitVec.ofNat 16 a) then Memory.read m a else s.mem.read a)
      0 (2 ^ 16)

/-- A register after a reset: what `ResetState` gives it, or an open value (R291). -/
def byteAfterReset (v : Option Byte) (item : Config.Draw) (n : Nat) : Byte := v.getD (Config.drawByte item n)

/-- A flag after a reset, likewise. -/
def flagAfterReset (v : Option Bool) (item : Config.Draw) (n : Nat) : Bool := v.getD (Config.drawBit item n)

/-- What a reset does to registers and memory before the reset sequence reads the vector (R291, R292): every
register but `pc` from `ResetState`, memory as `memoryAfterReset` says. -/
def State.resetRegisters (s : State) : State :=
  let r := s.params.resetState
  let n := s.cycles
  { s with
    a := byteAfterReset r.a .resetA n
    x := byteAfterReset r.x .resetX n
    h := byteAfterReset r.h .resetH n
    sp := r.sp.getD (wordOf (Config.drawByte .resetSpHigh n) (Config.drawByte .resetSpLow n))
    ccr :=
      { v := flagAfterReset r.v .resetV n
        h := flagAfterReset r.half .resetHalf n
        i := flagAfterReset r.i .resetI n
        n := flagAfterReset r.n .resetN n
        z := flagAfterReset r.z .resetZ n
        c := flagAfterReset r.c .resetC n }
    run := .running
    inhibit := false
    mem := s.memoryAfterReset }

/-- What the reset sequence `vvp` leaves, its three bus cycles made (R290): `pc` and the instruction buffer
through the reset vector; nothing is stacked. No other reset falls into it. -/
def State.takeReset (s : State) : State :=
  let target := s.resetRegisters.loadWord .v Config.resetVector
  target.2.goto target.1

/-- The bus cycles of the reset sequence (R290). -/
def State.resetCycles (s : State) : List BusAccess := s.takeReset.bus.drop s.bus.length

/-- After the first `k` bus cycles of the reset sequence: memory is as the reset leaves it, and the next reset
overwrites the registers again (R292). -/
def State.resetBegun (s : State) (k : Nat) : State := s.resetRegisters.partWay (s.resetCycles.take k)

/-- What the reset sequence leaves when resets fall into it: each takes the CPU after so many of its bus
cycles, and it begins again (R292: "at any time"). -/
def State.takeResets (s : State) : List Nat → State
  | [] => s.takeReset
  | k :: again => if k < resetCode.length then (s.resetBegun k).takeResets again else s.takeReset

/-! ## Sequences of bus cycles -/

/-- The end of a sequence that `s` starts and `t` ends: `t`, unless a cycle is at a marked address (92 D12). -/
def State.finish (s t : State) : Host.Outcome State Fault Refusal :=
  match s.firstMarked t.bus with
  | some a => .fault (.markedAddress s.pc a)
  | none => .next t

/-- The reset sequence, with the resets that fall into it (R290, R292). -/
def State.resetSequence (s : State) : Host.Outcome State Fault Refusal :=
  s.finish (s.takeResets s.inputs.resetAgain)

/-- A sequence that `s` starts and `t` ends, or as many of its bus cycles as come before a reset that falls
into it, and then the reset sequence (R292). -/
def State.sequence (s t : State) : Host.Outcome State Fault Refusal :=
  match s.inputs.resetRequest with
  | none => s.finish t
  | some k =>
    if k < t.bus.length then
      match s.firstMarked (t.bus.take k) with
      | some a => .fault (.markedAddress s.pc a)
      | none => (s.partWay (t.bus.take k)).resetSequence
    else s.finish t

/-! ## Interrupts -/

/-- The highest-priority requesting source (R268): the first of `IntSources` whose request is pending,
among those that can wake the CPU when it is stopped (R274). -/
def highestPending (stopped : Bool) : List Config.IntSource → List Bool → Option Config.IntSource
  | src :: srcs, req :: reqs =>
    if req && (!stopped || src.wakesStop) then some src else highestPending stopped srcs reqs
  | [], _ => none
  | _ :: _, [] => none

/-- The recognition condition (R263): I is 0, the boundary is not protected by `CliDelay`, and a source
requests. -/
def State.recognised (s : State) : Option Config.IntSource :=
  if s.ccr.i || s.inhibit then none
  else highestPending (s.run == .stopped) s.params.intSources s.inputs.requests

/-- Bus cycles of an interrupt entry: nine from `running` (R264, R278); open, but at least one, when it
ends a wait or a stop (R253, R273; 92 D24, log entry 22). -/
def State.entryCycles (s : State) : Nat :=
  match s.run with
  | .running => entryCode.length
  | .waiting => 1 + Config.wakeCycles s.cycles
  | .stopped => 1 + Config.wakeCycles s.cycles

/-- A hardware interrupt (R264, R273): the exception entry with the address of the instruction that would
have run next; a halted CPU runs again. The request stays as the peripheral holds it (R281). The count of
bus cycles is `entryCycles` more: nine from `running`, as many as were made. -/
def State.takeInterrupt (s : State) (src : Config.IntSource) : State :=
  ((s.takeException s.pc src.vector).setRun .running).setCycles (s.cycles + s.entryCycles)

/-- The opcodes whose second program byte is fetched after an `r` cycle at the direct-page address that is
the first: BRSET and BRCLR (`prpdp`), and MOV direct to direct (`prpwp`) (R161, R162, R214). -/
def readsBetweenFetches (opcode : Byte) : Bool := opcode.toNat < 16 || opcode == 0x4E#8

/-- The bytes an instruction can have: the opcode from the instruction buffer (R30), the others as the `p`
cycles find them, each after the cycles before it (R61, R69, R80, R100). To look at a byte is no access: the
instruction that these bytes spell makes the cycles. -/
def State.fetchBytes (s : State) : List Byte :=
  let first := s.read (s.pc + 1#16)
  let t := s.fetchByte 1
  let u := if readsBetweenFetches s.ibuf then t.load .r (zext16 first) else t
  [s.ibuf, first, u.read (s.pc + 2#16), (t.fetchByte 2).read (s.pc + 3#16)]

/-- The state after the bytes of an undefined opcode are fetched: the opcode was in the buffer, and the
second byte of a `$9E` pair takes one `p` cycle (R98, R103). -/
def State.afterUndefined (s : State) (bytes : List Byte) : State :=
  if bytes.length = 2 then s.fetchByte 1 else s

/-- An opcode with no row in Table 1 (R103, R277): `IllegalOpcodeBehaviour` decides; a fault changes no
state. -/
def State.illegalOpcode (s : State) (bytes : List Byte) : Host.Outcome State Fault Refusal :=
  let t := s.afterUndefined bytes
  match s.firstMarked t.bus with
  | some a => .fault (.markedAddress s.pc a)
  | none =>
    match s.params.illegalOpcode with
    | .fault => .fault (.illegalOpcode s.pc bytes)
    | .reset => t.resetSequence

/-- The bytes `bs` at consecutive addresses from `a` on, modulo 2^16. -/
def storeBytes : Memory → Word → List Byte → Memory
  | m, _, [] => m
  | m, a, b :: bs => storeBytes (m.write a.toNat b) (a + 1#16) bs

end Sys2Proof.Machine
end

