-- ==== Sys2Proof/Machine/Operands.lean ====
section
/-! DEFINITION. The addressing modes (spec 30 R84 to R96): effective addresses, lengths, operand values as
the bus cycles read them, and on which side of the last program fetch these cycles stand (20 R72). -/

namespace Sys2Proof.Machine

/-- `EA` by mode (R86 to R92), modulo 2^16 (R53). The 8-bit offsets are unsigned (R89, R91). -/
def effectiveAddress (m : MemMode) (s : State) : Word :=
  match m with
  | .dir dd => zext16 dd
  | .ext a => a
  | .ix2 o => s.hx + o
  | .ix1 ff => s.hx + zext16 ff
  | .ix => s.hx
  | .sp2 o => s.sp + o
  | .sp1 ff => s.sp + zext16 ff

/-- The number of object-code bytes of a form in this mode that has no offset `rr` (R80, R81). -/
def modeLength : MemMode → Nat
  | .dir _ => 2
  | .ext _ => 3
  | .ix2 _ => 3
  | .ix1 _ => 2
  | .ix => 1
  | .sp2 _ => 4
  | .sp1 _ => 3

/-- The length of a reader (R81). -/
def sourceLength : Source → Nat
  | .imm _ => 2
  | .mem m => modeLength m

/-- The length of LDHX and CPHX. -/
def source16Length : Source16 → Nat
  | .imm _ => 3
  | .dir _ => 2

/-- The operand address of CBEQ (R193). -/
def cbeqAddress (m : CbeqMode) (s : State) : Word :=
  match m with
  | .dir dd => zext16 dd
  | .ix1Plus ff => s.hx + zext16 ff
  | .ixPlus => s.hx
  | .sp1 ff => s.sp + zext16 ff

/-- The post-increment of `H:X` in the modes IX+ and IX1+ (R93, R94). -/
def cbeqIncrement (m : CbeqMode) (s : State) : State :=
  match m with
  | .ix1Plus _ => s.setHx (s.hx + 1#16)
  | .ixPlus => s.setHx (s.hx + 1#16)
  | .dir _ => s
  | .sp1 _ => s

/-- The length of CBEQ (R193). -/
def cbeqLength : CbeqMode → Nat
  | .dir _ => 3
  | .ix1Plus _ => 3
  | .ixPlus => 2
  | .sp1 _ => 4

/-! ## The operand's bus cycles -/

/-- In the direct and extended forms of a reader, a store or a read-modify-write the operand's cycles come
before the last program fetch, in the indexed and stack-pointer forms after it (R72, R120, R140, R306). -/
def operandBeforeFetch : MemMode → Bool
  | .dir _ => true
  | .ext _ => true
  | .ix2 _ => false
  | .ix1 _ => false
  | .ix => false
  | .sp2 _ => false
  | .sp1 _ => false

/-- The cycles before those of the operand: the bytes of the instruction, and in the indexed and stack-pointer
forms the next opcode too. -/
def beforeOperand (m : MemMode) (s : State) : State :=
  let t := s.fetch (modeLength m - 1)
  if operandBeforeFetch m then t else t.advance (modeLength m)

/-- The cycles after those of the operand: the next opcode, where it is not fetched yet. -/
def afterOperand (m : MemMode) (s : State) : State :=
  if operandBeforeFetch m then s.advance (modeLength m) else s

/-- The byte at `EA`, as the operand's `r` cycle reads it (R62). -/
def memoryValue (m : MemMode) (s : State) : Byte := (beforeOperand m s).read (effectiveAddress m s)

/-- The operand `M` of a reader (R120): the immediate byte, or the byte at `EA`. -/
def sourceValue (src : Source) (s : State) : Byte :=
  match src with
  | .imm ii => ii
  | .mem m => memoryValue m s

/-- All the bus cycles of a reader (R120): the next instruction's opcode is fetched, `M` is read, and no
register but `pc` and the instruction buffer is written. -/
def readOperand (src : Source) (s : State) : State :=
  match src with
  | .imm _ => (s.fetch 1).advance 2
  | .mem m => afterOperand m ((beforeOperand m s).load .r (effectiveAddress m s))

/-- All the bus cycles of a store of `v` at `EA` (R120, R143). -/
def writeOperand (m : MemMode) (v : Byte) (s : State) : State :=
  afterOperand m ((beforeOperand m s).store .w (effectiveAddress m s) v)

/-- All the bus cycles of a read-modify-write that puts `v` at `EA` (R140). -/
def rewriteOperand (m : MemMode) (v : Byte) (s : State) : State :=
  afterOperand m (((beforeOperand m s).load .r (effectiveAddress m s)).store .w (effectiveAddress m s) v)

/-- `M16` of LDHX and CPHX (R212): `ii:jj`, or the two bytes at `$00:dd`. -/
def source16Value (src : Source16) (s : State) : Word :=
  match src with
  | .imm w => w
  | .dir dd => ((s.fetch 1).loadWord .r (zext16 dd)).1

/-- All the bus cycles of LDHX and CPHX: `ppp` or `prrp` (R212, R213; 90 C6). -/
def readOperand16 (src : Source16) (s : State) : State :=
  match src with
  | .imm _ => (s.fetch 2).advance 3
  | .dir dd => ((s.fetch 1).loadWord .r (zext16 dd)).2.advance 2

/-! ## Shapes of instructions -/

/-- A reading register/memory instruction whose result goes to `A` and the flags (R120). -/
def accumulate (src : Source) (op : Byte → Ccr → Byte × Ccr) (s : State) : State :=
  (readOperand src s).putA (op (sourceValue src s) s.ccr)

/-- A reading register/memory instruction that writes flags only (BIT, CMP, CPX). -/
def compareWith (src : Source) (op : Byte → Ccr → Byte × Ccr) (s : State) : State :=
  (readOperand src s).setCcr (op (sourceValue src s) s.ccr).2

/-- A store of a register (R120, R132, R133): flags from the value stored. -/
def storeRegister (m : MemMode) (v : Byte) (s : State) : State :=
  (writeOperand m v s).setCcr (logic8 v s.ccr)

/-- A read-modify-write of a memory byte (R140). -/
def modifyMemory (m : MemMode) (op : Byte → Ccr → Byte × Ccr) (s : State) : State :=
  let p := op (memoryValue m s) s.ccr
  (rewriteOperand m p.1 s).setCcr p.2

/-- An inherent one-byte operation on `A` (R140). -/
def modifyA (op : Byte → Ccr → Byte × Ccr) (s : State) : State := (s.advance 1).putA (op s.a s.ccr)

/-- An inherent one-byte operation on `X` (R140). -/
def modifyX (op : Byte → Ccr → Byte × Ccr) (s : State) : State := (s.advance 1).putX (op s.x s.ccr)

end Sys2Proof.Machine
end

