-- ==== Sys2Proof/Machine/BitManipulation.lean ====
section
/-! DEFINITION. Bit manipulation (spec 42 R160 to R163): a byte of the direct page and a bit `n` of it. -/

namespace Sys2Proof.Machine

open Host (Outcome)

/-- The byte of the direct page, as the `r` cycle after the first program byte reads it (R68, R160). -/
def directValue (dd : Byte) (s : State) : Byte := (s.fetch 1).read (zext16 dd)

/-- The whole byte is read, changed and written back, before the next opcode is fetched: `prwp` (R68, R160,
R163). No flag is written. -/
def rewriteDirect (dd : Byte) (change : Byte → Byte) (s : State) : State :=
  (((s.fetch 1).load .r (zext16 dd)).store .w (zext16 dd) (change (directValue dd s))).advance 2

/-- BCLR: `v & ~(1 << n)` (R160). -/
def execBclr (n : Fin 8) (dd : Byte) (s : State) : Outcome State Fault Refusal :=
  .next (rewriteDirect dd (fun v => v &&& ~~~bitMask n) s)

/-- BSET: `v | (1 << n)` (R163). -/
def execBset (n : Fin 8) (dd : Byte) (s : State) : Outcome State Fault Refusal :=
  .next (rewriteDirect dd (fun v => v ||| bitMask n) s)

/-- The tested bit goes to C in both instructions; the branch is taken when it equals `sense`. The byte is
read before `rr` is fetched: `prpdp` (R161, R162). -/
def branchOnBit (sense : Bool) (n : Fin 8) (dd rr : Byte) (s : State) : State :=
  let b := (directValue dd s).getLsbD n.val
  let t := (((s.fetch 1).load .r (zext16 dd)).fetchByte 2).dummy (s.pc + 2#16)
  (t.setCcr (s.ccr.withC b)).branch (b == sense) 3 rr

/-- BRCLR (R161). -/
def execBrclr (n : Fin 8) (dd rr : Byte) (s : State) : Outcome State Fault Refusal :=
  .next (branchOnBit false n dd rr s)

/-- BRSET (R162). -/
def execBrset (n : Fin 8) (dd rr : Byte) (s : State) : Outcome State Fault Refusal :=
  .next (branchOnBit true n dd rr s)

end Sys2Proof.Machine
end

