-- ==== Sys2Proof/Machine/Branch.lean ====
section
/-! DEFINITION. Branch instructions (spec 43 R170 to R194). A simple branch reads flags (or the IRQ pin),
writes none, and never faults (R170). -/

namespace Sys2Proof.Machine

open Host (Outcome)

/-- A two-byte branch on a condition of the state as the branch starts, `pdp` (R170). -/
def simpleBranch (taken : Bool) (rr : Byte) (s : State) : State := (s.fetchThenDummy 1).branch taken 2 rr

/-- The operand of CBEQ, as its `r` cycle reads it (R193). -/
def cbeqValue (m : CbeqMode) (s : State) : Byte := (s.fetch (cbeqLength m - 1)).read (cbeqAddress m s)

/-- The operand of DBNZ, as its `r` cycle reads it (R194). -/
def dbnzValue (m : MemMode) (s : State) : Byte := (s.fetch (modeLength m)).read (effectiveAddress m s)

/-- BCC (= BHS): C = 0 (R171, R179). -/
def execBcc (rr : Byte) (s : State) : Outcome State Fault Refusal :=
  .next (simpleBranch (!s.ccr.c) rr s)

/-- BCS (= BLO): C = 1 (R172, R183). -/
def execBcs (rr : Byte) (s : State) : Outcome State Fault Refusal :=
  .next (simpleBranch s.ccr.c rr s)

/-- BEQ: Z = 1 (R173). -/
def execBeq (rr : Byte) (s : State) : Outcome State Fault Refusal :=
  .next (simpleBranch s.ccr.z rr s)

/-- BGE: N xor V = 0 (R174). -/
def execBge (rr : Byte) (s : State) : Outcome State Fault Refusal :=
  .next (simpleBranch (!(s.ccr.n ^^ s.ccr.v)) rr s)

/-- BGT: Z or (N xor V) = 0 (R175). -/
def execBgt (rr : Byte) (s : State) : Outcome State Fault Refusal :=
  .next (simpleBranch (!(s.ccr.z || (s.ccr.n ^^ s.ccr.v))) rr s)

/-- BHCC: half-carry = 0 (R176). -/
def execBhcc (rr : Byte) (s : State) : Outcome State Fault Refusal :=
  .next (simpleBranch (!s.ccr.h) rr s)

/-- BHCS: half-carry = 1 (R177). -/
def execBhcs (rr : Byte) (s : State) : Outcome State Fault Refusal :=
  .next (simpleBranch s.ccr.h rr s)

/-- BHI: C or Z = 0 (R178). -/
def execBhi (rr : Byte) (s : State) : Outcome State Fault Refusal :=
  .next (simpleBranch (!(s.ccr.c || s.ccr.z)) rr s)

/-- BIH: the IRQ pin is 1, sampled once (R180). -/
def execBih (rr : Byte) (s : State) : Outcome State Fault Refusal :=
  .next (simpleBranch s.inputs.irqPin rr s)

/-- BIL: the IRQ pin is 0 (R181). -/
def execBil (rr : Byte) (s : State) : Outcome State Fault Refusal :=
  .next (simpleBranch (!s.inputs.irqPin) rr s)

/-- BLE: Z or (N xor V) = 1 (R182). -/
def execBle (rr : Byte) (s : State) : Outcome State Fault Refusal :=
  .next (simpleBranch (s.ccr.z || (s.ccr.n ^^ s.ccr.v)) rr s)

/-- BLS: C or Z = 1 (R184). -/
def execBls (rr : Byte) (s : State) : Outcome State Fault Refusal :=
  .next (simpleBranch (s.ccr.c || s.ccr.z) rr s)

/-- BLT: N xor V = 1 (R185). -/
def execBlt (rr : Byte) (s : State) : Outcome State Fault Refusal :=
  .next (simpleBranch (s.ccr.n ^^ s.ccr.v) rr s)

/-- BMC: I = 0 (R186). -/
def execBmc (rr : Byte) (s : State) : Outcome State Fault Refusal :=
  .next (simpleBranch (!s.ccr.i) rr s)

/-- BMI: N = 1 (R187). -/
def execBmi (rr : Byte) (s : State) : Outcome State Fault Refusal :=
  .next (simpleBranch s.ccr.n rr s)

/-- BMS: I = 1 (R188). -/
def execBms (rr : Byte) (s : State) : Outcome State Fault Refusal :=
  .next (simpleBranch s.ccr.i rr s)

/-- BNE: Z = 0 (R189). -/
def execBne (rr : Byte) (s : State) : Outcome State Fault Refusal :=
  .next (simpleBranch (!s.ccr.z) rr s)

/-- BPL: N = 0 (R190). -/
def execBpl (rr : Byte) (s : State) : Outcome State Fault Refusal :=
  .next (simpleBranch (!s.ccr.n) rr s)

/-- BRA: always; it does not test I (R191). -/
def execBra (rr : Byte) (s : State) : Outcome State Fault Refusal :=
  .next (simpleBranch true rr s)

/-- BRN: never (R192). -/
def execBrn (rr : Byte) (s : State) : Outcome State Fault Refusal :=
  .next (simpleBranch false rr s)

/-- CBEQ on a memory byte: `A` against `M`; the post-increment happens whether or not the branch is taken
(R93, R193). The `d` cycle reads the operand a second time (R299). No flag is written. -/
def execCbeq (m : CbeqMode) (rr : Byte) (s : State) : Outcome State Fault Refusal :=
  let ea := cbeqAddress m s
  let t := ((s.fetch (cbeqLength m - 1)).load .r ea).dummy ea
  .next ((cbeqIncrement m t).branch (s.a == cbeqValue m s) (cbeqLength m) rr)

/-- CBEQA: `A` against `ii` (R193). -/
def execCbeqa (ii rr : Byte) (s : State) : Outcome State Fault Refusal :=
  .next ((s.fetchThenDummy 2).branch (s.a == ii) 3 rr)

/-- CBEQX: `X` against `ii` (R193). -/
def execCbeqx (ii rr : Byte) (s : State) : Outcome State Fault Refusal :=
  .next ((s.fetchThenDummy 2).branch (s.x == ii) 3 rr)

/-- DBNZ on a memory byte: decremented, written back, then the branch on the value after the decrement;
the write precedes the last program fetch in every form, and no flag is written (R72, R194). -/
def execDbnz (m : MemMode) (rr : Byte) (s : State) : Outcome State Fault Refusal :=
  let ea := effectiveAddress m s
  let r := dbnzValue m s - 1#8
  .next ((((s.fetch (modeLength m)).load .r ea).store .w ea r).branch (r != 0#8) (modeLength m + 1) rr)

/-- DBNZA (R194). -/
def execDbnza (rr : Byte) (s : State) : Outcome State Fault Refusal :=
  let r := s.a - 1#8
  .next (((s.fetchThenDummy 1).setA r).branch (r != 0#8) 2 rr)

/-- DBNZX: "Affects X Not H" (R194). -/
def execDbnzx (rr : Byte) (s : State) : Outcome State Fault Refusal :=
  let r := s.x - 1#8
  .next (((s.fetchThenDummy 1).setX r).branch (r != 0#8) 2 rr)

end Sys2Proof.Machine
end

