-- ==== Sys2Proof/Machine/IndexStackMove.lean ====
section
/-! DEFINITION. Index register, stack pointer and move instructions (spec 45 R210 to R224). -/

namespace Sys2Proof.Machine

open Host (Outcome)

/-- AIS: `SP + sext(ii)`; no flag (R210). -/
def execAis (ii : Byte) (s : State) : Outcome State Fault Refusal :=
  .next (((s.fetch 1).advance 2).setSp (s.sp + sext16 ii))

/-- AIX: `H:X + sext(ii)`; no flag (R211). -/
def execAix (ii : Byte) (s : State) : Outcome State Fault Refusal :=
  .next (((s.fetch 1).advance 2).setHx (s.hx + sext16 ii))

/-- CPHX: the flags of `H:X - M16` (R212). -/
def execCphx (src : Source16) (s : State) : Outcome State Fault Refusal :=
  .next ((readOperand16 src s).setCcr (sub16 s.hx (source16Value src s) s.ccr).2)

/-- LDHX: `H:X <- M16`, V = 0, N and Z of the 16-bit value (R213). -/
def execLdhx (src : Source16) (s : State) : Outcome State Fault Refusal :=
  .next (((readOperand16 src s).setHx (source16Value src s)).setCcr (logic16 (source16Value src s) s.ccr))

/-- MOV: one byte from source to destination, flags of the byte moved, the post-increment of `H:X` in
the two `X+` forms; the write precedes the last program fetch. The source byte is read before the
destination's address is fetched (R72, R214). -/
def execMov (f : MoveForm) (s : State) : Outcome State Fault Refusal :=
  match f with
  | .dirDir src dst =>
    let m := (s.fetch 1).read (zext16 src)
    let t := (((s.fetch 1).load .r (zext16 src)).fetchByte 2).store .w (zext16 dst) m
    .next ((t.advance 3).setCcr (logic8 m s.ccr))
  | .dirIxPlus src =>
    let m := (s.fetch 1).read (zext16 src)
    let t := ((s.fetch 1).load .r (zext16 src)).store .w s.hx m
    .next (((t.advance 2).setHx (s.hx + 1#16)).setCcr (logic8 m s.ccr))
  | .immDir ii dst =>
    let t := (s.fetch 2).store .w (zext16 dst) ii
    .next ((t.advance 3).setCcr (logic8 ii s.ccr))
  | .ixPlusDir dst =>
    let m := (s.fetch 1).read s.hx
    let t := ((s.fetch 1).load .r s.hx).store .w (zext16 dst) m
    .next (((t.advance 2).setHx (s.hx + 1#16)).setCcr (logic8 m s.ccr))

/-- PSHA: the next opcode is fetched before the store (`ps`, R72, R215). -/
def execPsha (s : State) : Outcome State Fault Refusal := .next ((s.advance 1).push s.a)

/-- PSHH (R216). -/
def execPshh (s : State) : Outcome State Fault Refusal := .next ((s.advance 1).push s.h)

/-- PSHX (R217). -/
def execPshx (s : State) : Outcome State Fault Refusal := .next ((s.advance 1).push s.x)

/-- PULA, `pu`: no flag is written (R218). -/
def execPula (s : State) : Outcome State Fault Refusal :=
  .next ((s.advance 1).pull.2.setA (s.advance 1).pull.1)

/-- PULH (R219). -/
def execPulh (s : State) : Outcome State Fault Refusal :=
  .next ((s.advance 1).pull.2.setH (s.advance 1).pull.1)

/-- PULX (R220). -/
def execPulx (s : State) : Outcome State Fault Refusal :=
  .next ((s.advance 1).pull.2.setX (s.advance 1).pull.1)

/-- RSP: the low byte of `SP` becomes `$FF` (R221). -/
def execRsp (s : State) : Outcome State Fault Refusal :=
  .next ((s.advance 1).setSp (wordOf (hiByte s.sp) 0xFF#8))

/-- STHX: `H` at `$00:dd`, `X` at the next address, before the last program fetch (R72, R222). -/
def execSthx (dd : Byte) (s : State) : Outcome State Fault Refusal :=
  .next ((((s.fetch 1).storeWord .w (zext16 dd) s.hx).advance 2).setCcr (logic16 s.hx s.ccr))

/-- TSX: `H:X <- SP + 1` (R223). -/
def execTsx (s : State) : Outcome State Fault Refusal :=
  .next (((s.fetch 1).advance 1).setHx (s.sp + 1#16))

/-- TXS: `SP <- H:X - 1` (R224). -/
def execTxs (s : State) : Outcome State Fault Refusal :=
  .next (((s.fetch 1).advance 1).setSp (s.hx - 1#16))

end Sys2Proof.Machine
end

