-- ==== Sys2Proof/Machine/Inherent.lean ====
section
/-! DEFINITION. Inherent arithmetic, flag and transfer instructions (spec 46 R230 to R242). -/

namespace Sys2Proof.Machine

open Host (Outcome)

/-- CLC (R230). -/
def execClc (s : State) : Outcome State Fault Refusal :=
  .next ((s.advance 1).setCcr (s.ccr.withC false))

/-- CLI: I is cleared; under `CliDelay` the boundary after it recognises no interrupt (R231). -/
def execCli (s : State) : Outcome State Fault Refusal :=
  .next (((s.advanceThenDummies 1).setCcr (s.ccr.withI false)).noteMask s.ccr.i)

/-- DAA (R232): the table's correction and carry; on a combination outside the table `A`, C, N and Z
are open. V is open always ("U"). The half-carry flag is read, not written. -/
def execDaa (s : State) : Outcome State Fault Refusal :=
  let v := Config.drawBit (.daaV s.a s.ccr.h s.ccr.c) s.cycles
  let t := (s.fetch 1).advance 1
  match daaTable s.ccr.c (s.a.toNat / 16) s.ccr.h (s.a.toNat % 16) with
  | some (f, c) =>
    let r := s.a + f
    .next ((t.setA r).setCcr (nz8 r { s.ccr with v := v, c := c }))
  | none =>
    .next ((t.setA (Config.drawByte (.daaA s.a s.ccr.h s.ccr.c) s.cycles)).setCcr
      { s.ccr with
        v := v
        c := Config.drawBit (.daaC s.a s.ccr.h s.ccr.c) s.cycles
        n := Config.drawBit (.daaN s.a s.ccr.h s.ccr.c) s.cycles
        z := Config.drawBit (.daaZ s.a s.ccr.h s.ccr.c) s.cycles })

/-- The dividend of DIV, `H:A` (R233). -/
def dividend (s : State) : Nat := (wordOf s.h s.a).toNat

/-- DIV (R233): `H:A` by `X`, unsigned; quotient to `A`, remainder to `H`, C = 0, Z of the quotient. With
divisor 0 or a quotient above `$FF`, C = 1 and `A`, `H` and Z are open. -/
def execDiv (s : State) : Outcome State Fault Refusal :=
  let d := s.x.toNat
  let t := (s.fetchThenDummy 1).advanceThenDummies 4
  if d ≠ 0 ∧ dividend s / d ≤ 0xFF then
    let q := BitVec.ofNat 8 (dividend s / d)
    .next (((t.setA q).setH (BitVec.ofNat 8 (dividend s % d))).setCcr
      { s.ccr with c := false, z := decide (q = 0#8) })
  else
    .next (((t.setA (Config.drawByte (.divA s.h s.a s.x) s.cycles)).setH
      (Config.drawByte (.divH s.h s.a s.x) s.cycles)).setCcr
      { s.ccr with c := true, z := Config.drawBit (.divZ s.h s.a s.x) s.cycles })

/-- MUL (R234): `X:A <- X * A`, unsigned; half-carry and C are cleared, N, Z and V stay. -/
def execMul (s : State) : Outcome State Fault Refusal :=
  let p := zext16 s.x * zext16 s.a
  .next (((((s.fetch 1).advanceThenDummies 3).setX (hiByte p)).setA (loByte p)).setCcr
    { s.ccr with h := false, c := false })

/-- NOP (R235). -/
def execNop (s : State) : Outcome State Fault Refusal := .next (s.advance 1)

/-- NSA: `A[3:0]:A[7:4]`; no flag (R236). -/
def execNsa (s : State) : Outcome State Fault Refusal :=
  .next (((s.fetch 1).advanceThenDummies 1).setA (s.a.extractLsb' 0 4 ++ s.a.extractLsb' 4 4))

/-- SEC (R237). -/
def execSec (s : State) : Outcome State Fault Refusal :=
  .next ((s.advance 1).setCcr (s.ccr.withC true))

/-- SEI (R238). -/
def execSei (s : State) : Outcome State Fault Refusal :=
  .next ((s.advanceThenDummies 1).setCcr (s.ccr.withI true))

/-- TAP: the six flags from `A`, bits 6 and 5 ignored; `CliDelay` as for CLI (R239). -/
def execTap (s : State) : Outcome State Fault Refusal :=
  .next (((s.advanceThenDummies 1).setCcr (Ccr.ofByte s.a)).noteMask s.ccr.i)

/-- TAX: `H` and the flags stay (R240). -/
def execTax (s : State) : Outcome State Fault Refusal := .next ((s.advance 1).setX s.a)

/-- TPA: bits 6 and 5 read as 1 (R241). -/
def execTpa (s : State) : Outcome State Fault Refusal := .next ((s.advance 1).setA s.ccr.toByte)

/-- TXA (R242). -/
def execTxa (s : State) : Outcome State Fault Refusal := .next ((s.advance 1).setA s.x)

end Sys2Proof.Machine
end

