-- ==== Sys2Proof/Machine/JumpSubroutine.lean ====
section
/-! DEFINITION. Jump and subroutine instructions (spec 44 R200 to R203). -/

namespace Sys2Proof.Machine

open Host (Outcome)

/-- In the modes with an offset a jump has a `d` cycle before the fetch at its target (R201, R202). -/
def addsOffset : MemMode → Bool
  | .dir _ => false
  | .ext _ => false
  | .ix2 _ => true
  | .ix1 _ => true
  | .ix => false
  | .sp2 _ => true
  | .sp1 _ => true

/-- The program bytes a jump fetches before it acts: its own, or a surplus one where it has none (R201,
R202; 92 D14). -/
def jumpFetches (m : MemMode) : Nat := max 1 (modeLength m - 1)

/-- The return address is pushed, low byte first (R200, R202). -/
def call (fetches : Nat) (ret : Word) (s : State) : State := (s.fetch fetches).pushWord ret

/-- BSR, `pssp`: the return address is `pc + 2`, the target relative to it (R200). -/
def execBsr (rr : Byte) (s : State) : Outcome State Fault Refusal :=
  .next ((call 1 (s.pc + 2#16) s).goto (s.pc + 2#16 + sext16 rr))

/-- JMP: `pc <- EA`; the byte at `EA` is not read as data (R201). -/
def execJmp (m : MemMode) (s : State) : Outcome State Fault Refusal :=
  let n := jumpFetches m
  .next ((if addsOffset m then s.fetchThenDummy n else s.fetch n).goto (effectiveAddress m s))

/-- JSR: the return address is `pc + len`; the `d` cycle reads at the decremented `SP` (R67, R202; 90 C7). -/
def execJsr (m : MemMode) (s : State) : Outcome State Fault Refusal :=
  let t := call (jumpFetches m) (s.pc + BitVec.ofNat 16 (modeLength m)) s
  .next ((if addsOffset m then t.dummy t.sp else t).goto (effectiveAddress m s))

/-- RTS, `puup`: PCH, then PCL (R203). -/
def execRts (s : State) : Outcome State Fault Refusal :=
  let target := (s.fetch 1).pullWord
  .next (target.2.goto target.1)

end Sys2Proof.Machine
end

