-- ==== Sys2Proof/Machine/ReadModifyWrite.lean ====
section
/-! DEFINITION. Read-modify-write instructions (spec 41 R140 to R152): on a memory byte, on `A`, on `X`.
None can raise an exception (R140). -/

namespace Sys2Proof.Machine

open Host (Outcome)

/-- ASR of a memory byte (R142). -/
def execAsr (m : MemMode) (s : State) : Outcome State Fault Refusal := .next (modifyMemory m asr8 s)

/-- ASRA (R142). -/
def execAsra (s : State) : Outcome State Fault Refusal := .next (modifyA asr8 s)

/-- ASRX (R142). -/
def execAsrx (s : State) : Outcome State Fault Refusal := .next (modifyX asr8 s)

/-- COM of a memory byte (R144). -/
def execCom (m : MemMode) (s : State) : Outcome State Fault Refusal := .next (modifyMemory m com8 s)

/-- COMA (R144). -/
def execComa (s : State) : Outcome State Fault Refusal := .next (modifyA com8 s)

/-- COMX (R144). -/
def execComx (s : State) : Outcome State Fault Refusal := .next (modifyX com8 s)

/-- DEC of a memory byte (R145). -/
def execDec (m : MemMode) (s : State) : Outcome State Fault Refusal := .next (modifyMemory m dec8 s)

/-- DECA (R145). -/
def execDeca (s : State) : Outcome State Fault Refusal := .next (modifyA dec8 s)

/-- DECX (R145). -/
def execDecx (s : State) : Outcome State Fault Refusal := .next (modifyX dec8 s)

/-- INC of a memory byte (R146). -/
def execInc (m : MemMode) (s : State) : Outcome State Fault Refusal := .next (modifyMemory m inc8 s)

/-- INCA (R146). -/
def execInca (s : State) : Outcome State Fault Refusal := .next (modifyA inc8 s)

/-- INCX (R146). -/
def execIncx (s : State) : Outcome State Fault Refusal := .next (modifyX inc8 s)

/-- LSL (= ASL) of a memory byte (R147, R141). -/
def execLsl (m : MemMode) (s : State) : Outcome State Fault Refusal := .next (modifyMemory m lsl8 s)

/-- LSLA (R147, R141). -/
def execLsla (s : State) : Outcome State Fault Refusal := .next (modifyA lsl8 s)

/-- LSLX (R147, R141). -/
def execLslx (s : State) : Outcome State Fault Refusal := .next (modifyX lsl8 s)

/-- LSR of a memory byte (R148). -/
def execLsr (m : MemMode) (s : State) : Outcome State Fault Refusal := .next (modifyMemory m lsr8 s)

/-- LSRA (R148). -/
def execLsra (s : State) : Outcome State Fault Refusal := .next (modifyA lsr8 s)

/-- LSRX (R148). -/
def execLsrx (s : State) : Outcome State Fault Refusal := .next (modifyX lsr8 s)

/-- NEG of a memory byte (R149). -/
def execNeg (m : MemMode) (s : State) : Outcome State Fault Refusal := .next (modifyMemory m neg8 s)

/-- NEGA (R149). -/
def execNega (s : State) : Outcome State Fault Refusal := .next (modifyA neg8 s)

/-- NEGX (R149). -/
def execNegx (s : State) : Outcome State Fault Refusal := .next (modifyX neg8 s)

/-- ROL of a memory byte (R150). -/
def execRol (m : MemMode) (s : State) : Outcome State Fault Refusal := .next (modifyMemory m rol8 s)

/-- ROLA (R150). -/
def execRola (s : State) : Outcome State Fault Refusal := .next (modifyA rol8 s)

/-- ROLX (R150). -/
def execRolx (s : State) : Outcome State Fault Refusal := .next (modifyX rol8 s)

/-- ROR of a memory byte (R151). -/
def execRor (m : MemMode) (s : State) : Outcome State Fault Refusal := .next (modifyMemory m ror8 s)

/-- RORA (R151). -/
def execRora (s : State) : Outcome State Fault Refusal := .next (modifyA ror8 s)

/-- RORX (R151). -/
def execRorx (s : State) : Outcome State Fault Refusal := .next (modifyX ror8 s)

/-- CLR of a memory byte: one write and no read (R143). -/
def execClr (m : MemMode) (s : State) : Outcome State Fault Refusal :=
  .next ((writeOperand m 0x00#8 s).setCcr (clearFlags s.ccr))

/-- CLRA (R143). -/
def execClra (s : State) : Outcome State Fault Refusal :=
  .next (((s.setA 0x00#8).setCcr (clearFlags s.ccr)).advance 1)

/-- CLRX (R143). -/
def execClrx (s : State) : Outcome State Fault Refusal :=
  .next (((s.setX 0x00#8).setCcr (clearFlags s.ccr)).advance 1)

/-- CLRH: the register `H`, not the flag (R143). -/
def execClrh (s : State) : Outcome State Fault Refusal :=
  .next (((s.setH 0x00#8).setCcr (clearFlags s.ccr)).advance 1)

/-- TST of a memory byte: flags only, nothing is written back (R152). -/
def execTst (m : MemMode) (s : State) : Outcome State Fault Refusal :=
  .next (compareWith (.mem m) logicResult s)

/-- TSTA (R152). -/
def execTsta (s : State) : Outcome State Fault Refusal :=
  .next ((s.setCcr (logic8 s.a s.ccr)).advance 1)

/-- TSTX (R152). -/
def execTstx (s : State) : Outcome State Fault Refusal :=
  .next ((s.setCcr (logic8 s.x s.ccr)).advance 1)

end Sys2Proof.Machine
end

