-- ==== Sys2Proof/Machine/RegisterMemory.lean ====
section
/-! DEFINITION. Register/memory instructions (spec 40 R120 to R134). Every one of them answers a next
state: none can raise an exception (R120). -/

namespace Sys2Proof.Machine

open Host (Outcome)

/-- ADC: `A <- add8(A, M, C)` (R121). -/
def execAdc (src : Source) (s : State) : Outcome State Fault Refusal :=
  .next (accumulate src (fun m f => add8 s.a m f.c f) s)

/-- ADD: `A <- add8(A, M, 0)` (R122). -/
def execAdd (src : Source) (s : State) : Outcome State Fault Refusal :=
  .next (accumulate src (fun m f => add8 s.a m false f) s)

/-- AND: `A <- A & M` (R123). -/
def execAnd (src : Source) (s : State) : Outcome State Fault Refusal :=
  .next (accumulate src (fun m f => logicResult (s.a &&& m) f) s)

/-- BIT: the flags of `A & M`; `A` is not written (R124). -/
def execBit (src : Source) (s : State) : Outcome State Fault Refusal :=
  .next (compareWith src (fun m f => logicResult (s.a &&& m) f) s)

/-- CMP: the flags of `A - M` (R125). -/
def execCmp (src : Source) (s : State) : Outcome State Fault Refusal :=
  .next (compareWith src (fun m f => sub8 s.a m false f) s)

/-- CPX: the flags of `X - M` (R126). -/
def execCpx (src : Source) (s : State) : Outcome State Fault Refusal :=
  .next (compareWith src (fun m f => sub8 s.x m false f) s)

/-- EOR: `A <- A xor M` (R127). -/
def execEor (src : Source) (s : State) : Outcome State Fault Refusal :=
  .next (accumulate src (fun m f => logicResult (s.a ^^^ m) f) s)

/-- LDA: `A <- M` (R128). -/
def execLda (src : Source) (s : State) : Outcome State Fault Refusal :=
  .next (accumulate src logicResult s)

/-- LDX: `X <- M`; `H` stays, and the address uses the old `H:X` (R129). -/
def execLdx (src : Source) (s : State) : Outcome State Fault Refusal :=
  .next ((readOperand src s).putX (logicResult (sourceValue src s) s.ccr))

/-- ORA: `A <- A | M` (R130). -/
def execOra (src : Source) (s : State) : Outcome State Fault Refusal :=
  .next (accumulate src (fun m f => logicResult (s.a ||| m) f) s)

/-- SBC: `A <- sub8(A, M, C)` (R131). -/
def execSbc (src : Source) (s : State) : Outcome State Fault Refusal :=
  .next (accumulate src (fun m f => sub8 s.a m f.c f) s)

/-- STA: `M <- A` (R132). -/
def execSta (m : MemMode) (s : State) : Outcome State Fault Refusal :=
  .next (storeRegister m s.a s)

/-- STX: `M <- X` (R133). -/
def execStx (m : MemMode) (s : State) : Outcome State Fault Refusal :=
  .next (storeRegister m s.x s)

/-- SUB: `A <- sub8(A, M, 0)` (R134). -/
def execSub (src : Source) (s : State) : Outcome State Fault Refusal :=
  .next (accumulate src (fun m f => sub8 s.a m false f) s)

end Sys2Proof.Machine
end

