-- ==== Sys2Proof/Machine/System.lean ====
section
/-! DEFINITION. System instructions (spec 47 R250 to R253). -/

namespace Sys2Proof.Machine

open Host (Outcome)

/-- RTI (R250). -/
def execRti (s : State) : Outcome State Fault Refusal := .next s.returnFromException

/-- STOP: I cleared, the next instruction's opcode fetched, run state `stopped` (R251, R274). Where
`StopBehaviour` does not permit it the program is refused (92 D9). -/
def execStop (s : State) : Outcome State Fault Refusal :=
  match s.params.stopBehaviour with
  | .asWait => .next ((s.advance 1).halt .stopped)
  | .refuse => .refused .stopNotPermitted

/-- SWI: the exception entry with the address after SWI and the vector `VecSWI`, whatever I holds
(R252, R275). -/
def execSwi (s : State) : Outcome State Fault Refusal :=
  .next (s.takeException (s.pc + 1#16) s.params.vecSwi)

/-- WAIT: I cleared, the next instruction's opcode fetched, run state `waiting` (R253, R273). -/
def execWait (s : State) : Outcome State Fault Refusal := .next ((s.advance 1).halt .waiting)

end Sys2Proof.Machine
end

