-- ==== Sys2Proof/Machine/Execute.lean ====
section
/-! DEFINITION. Fetching, decoding and executing one instruction at a boundary (spec 30 R100; 60 R262). -/

namespace Sys2Proof.Machine

/-- One whole instruction: the fetched bytes are decoded and executed, with all its bus cycles (R304). The
protection of `CliDelay` ends as the instruction starts. -/
def State.runInstruction (s : State) : Host.Outcome State Fault Refusal :=
  match decode s.fetchBytes with
  | .ok (i, _) =>
    match exec i (s.setInhibit false) with
    | .next t => s.sequence t
    | .fault r => .fault r
    | .refused r => .refused r
  | .error e => s.illegalOpcode e.bytes

/-- What a boundary does once its inputs are taken (R271): reset before everything; then a recognised
interrupt; then, if the CPU runs, the next instruction. A halted CPU that nothing wakes stays as it is
(R273, R274). DESIGN CHOICE (log entry 22): the entry that ends a wait or a stop makes the same nine
accesses `psssssvvp` as the entry of a running CPU, for the devices, the marked addresses and a reset that
falls into it; the spec leaves open whether it does (R253; 92 D24). -/
def State.atBoundary (s : State) : Host.Outcome State Fault Refusal :=
  if s.inputs.resetRequest = some 0 then s.resetSequence
  else match s.recognised with
    | some src => s.sequence (s.takeInterrupt src)
    | none => match s.run with
      | .running => s.runInstruction
      | .waiting => .next s
      | .stopped => .next s

/-- The instruction whose bits are `w` (as `tableWordBytes` lays them out) stands at `pc`, its opcode
already in the instruction buffer (R30). -/
def State.placeInstruction (s : State) (nbits w : Nat) : State :=
  let bytes := tableWordBytes nbits w
  (s.setMem (storeBytes s.mem s.pc bytes)).setIbuf (bytes.headD 0x00#8)

end Sys2Proof.Machine
end

