-- ==== Sys2Proof/Machine/Step.lean ====
section
/-! DEFINITION. One step of the machine: one instruction boundary with the inputs of that moment (spec 60
R262, R271). -/

namespace Sys2Proof.Machine

/-- One step: the inputs of the boundary are taken, then reset, an interrupt, an instruction, or the
halt goes on. -/
def step (s : State) : Host.Outcome State Fault Refusal := s.sampleInputs.atBoundary

/-- `s` with an instruction placed where `step` fetches its next one: its bytes at `pc` and the three
addresses after it, its opcode in the instruction buffer. -/
def State.withFetchWord (s : State) (nbits w : Nat) : State := s.placeInstruction nbits w

end Sys2Proof.Machine
end

