-- ==== Sys2Proof/Machine/Run.lean ====
section
/-! DEFINITION. The end of a run (spec 70 R294; 92 D27): the CPU never finishes, so a run is given the address
at which it ends. -/

namespace Sys2Proof.Machine

/-- How a run that was given an end address came out. -/
inductive RunEnd where
  /-- `pc` reached the end address: the state before the instruction there. What is observed of it is the
  registers, the flags and memory (92 D27). -/
  | ended (s : State)
  /-- The steps allowed did not reach it; a halt that nothing ends is such a run. -/
  | unfinished (s : State)
  /-- A fault ended the run; it has no final state (R277, 92 D27). -/
  | fault (r : Fault)
  /-- The model refused an instruction. -/
  | refused (r : Refusal)
  deriving DecidableEq, Repr

/-- At most `n` steps, ending when `pc` equals the end address, before the instruction there executes
(92 D27; log entry 23). -/
def runTo (stop : Word) : Nat → State → RunEnd
  | 0, s => if s.pc = stop then .ended s else .unfinished s
  | n + 1, s =>
    if s.pc = stop then .ended s
    else match step s with
      | .next t => runTo stop n t
      | .fault r => .fault r
      | .refused r => .refused r

end Sys2Proof.Machine
end

