-- ==== Sys2Proof/WellFormed.lean ====
section
/-! DEFINITION. Which addressing modes each instruction has in Table 1. The readers, STA and STX have all
seven memory modes; the read-modify-write group, DBNZ, TST and CLR have four (R140, R194); JMP and JSR
have five, none of them relative to `SP` (R201, R202). -/

namespace Sys2Proof

/-- The memory modes of rows `3`, `6`, `7` and `9E 6x`: DIR, IX1, IX, SP1 (R140: "There are no
extended, 16-bit-offset or immediate forms"). -/
def MemMode.isRmw : MemMode → Bool
  | .dir _ | .ix1 _ | .ix | .sp1 _ => true
  | .ext _ | .ix2 _ | .sp2 _ => false

/-- The modes of JMP and JSR: DIR, EXT, IX2, IX1, IX (R201; `9E DC/DD/EC/ED` are undefined, R98). -/
def MemMode.isJump : MemMode → Bool
  | .dir _ | .ext _ | .ix2 _ | .ix1 _ | .ix => true
  | .sp2 _ | .sp1 _ => false

/-- The instruction is a form of Table 1. -/
def Instr.isWellFormed : Instr → Bool
  | .neg m | .com m | .lsr m | .ror m | .asr m | .lsl m | .rol m | .dec m | .inc m | .tst m
  | .clr m => m.isRmw
  | .dbnz m _ => m.isRmw
  | .jmp m | .jsr m => m.isJump
  | .sta _ | .stx _ => true
  | .sub _ | .cmp _ | .sbc _ | .cpx _ | .and _ | .bit _ | .lda _ | .eor _ | .adc _ | .ora _
  | .add _ | .ldx _ => true
  | .brset _ _ _ | .brclr _ _ _ => true
  | .bset _ _ | .bclr _ _ => true
  | .bra _ | .brn _ | .bhi _ | .bls _ | .bcc _ | .bcs _ | .bne _ | .beq _ | .bhcc _ | .bhcs _
  | .bpl _ | .bmi _ | .bmc _ | .bms _ | .bil _ | .bih _ | .bge _ | .blt _ | .bgt _ | .ble _
  | .bsr _ | .dbnza _ | .dbnzx _ => true
  | .cbeq _ _ => true
  | .cbeqa _ _ | .cbeqx _ _ => true
  | .sthx _ | .ais _ | .aix _ => true
  | .ldhx _ | .cphx _ => true
  | .mov _ => true
  | .nega | .coma | .lsra | .rora | .asra | .lsla | .rola | .deca | .inca | .tsta | .clra
  | .negx | .comx | .lsrx | .rorx | .asrx | .lslx | .rolx | .decx | .incx | .tstx | .clrx
  | .clrh => true
  | .mul | .div | .nsa | .daa => true
  | .rti | .rts | .swi | .stop | .wait => true
  | .tap | .tpa | .tax | .txa | .txs | .tsx | .rsp | .nop => true
  | .pula | .psha | .pulx | .pshx | .pulh | .pshh => true
  | .clc | .sec | .cli | .sei => true

/-- A well-formed instruction, as a decidable proposition. -/
abbrev WellFormed (i : Instr) : Prop := i.isWellFormed = true

end Sys2Proof
end

