-- ==== Sys2Proof/Safety.lean ====
section
/-! DEFINITION. The terms statements are made in: what a step leaves alone, what a store leaves in memory,
which instructions the spec lets write each register and flag, the invariant of the machine, and what a
safe run is. -/

namespace Sys2Proof.Safety

open Sys2Proof.Machine

/-! ## Frames -/

/-- The four registers of a state (R20). -/
def Registers (t : State) (a x h : Byte) (sp : Word) : Prop := t.a = a ∧ t.x = x ∧ t.h = h ∧ t.sp = sp

/-- Everything around the registers, memory and the bus is as before: run state, protection of `CliDelay`,
inputs, parameters. Every instruction makes bus cycles: what they add to the count, to what the devices have
seen and to the record is the obligation BusCyclesMakeTheInstruction. -/
def SameSurroundings (s t : State) : Prop :=
  t.run = s.run ∧ t.inhibit = s.inhibit ∧ t.inputs = s.inputs ∧ t.schedule = s.schedule ∧ t.params = s.params

/-- Every byte of memory is as before. -/
def SameBytes (s t : State) : Prop := ∀ b : Word, t.mem.read b.toNat = s.mem.read b.toNat

/-- The memory of `t` is that of `s` with `v` stored at `b`, where `MemMap` has RAM: every other byte is as
before. What a store does at an address that is not RAM is the last clause of the obligation
WritersOfRegistersAndMemory (log entry 13). -/
def StoredAt (s t : State) (b : Word) (v : Byte) : Prop :=
  (s.isRam b = true → t.mem.read b.toNat = v) ∧
    ∀ c : Word, c ≠ b → t.mem.read c.toNat = s.mem.read c.toNat

/-! ## Bus cycles -/

/-- The bus cycles made from `s` to `t`. -/
def cyclesOf (s t : State) : List BusAccess := t.bus.drop s.bus.length

/-- Every cycle of `bus`, made from `s` on, that reads moves the byte its address holds after all the cycles
before it (R69 (a), (b)). -/
def Coherent (s : State) (bus : List BusAccess) : Prop :=
  ∀ (k : Nat) (c : BusAccess), bus[k]? = some c → c.stored = none →
    c.data = (s.partWay (bus.take k)).read c.addr

/-- The last program fetch from `s` to `t` is at `t`'s `pc`, and the instruction buffer has the byte that the
address held at that cycle (R30, R69). -/
def OpcodeFetched (s t : State) : Prop :=
  ∃ before after : List BusAccess, cyclesOf s t = before ++ ⟨.p, t.pc, t.ibuf⟩ :: after ∧
    (∀ c ∈ after, c.kind ≠ .p) ∧ t.ibuf = (s.partWay before).read t.pc

/-- Control goes on at `target`, whose opcode is in the instruction buffer. -/
def GoesTo (s t : State) (target : Word) : Prop := t.pc = target ∧ OpcodeFetched s t

/-- What the devices have seen after these cycles, newest first: each cycle at a device's address, and the byte
it stores (R51, R69 (d)). -/
def devicesSeen (s : State) (bus : List BusAccess) : List Config.DeviceAccess :=
  ((bus.filter fun c => regionKindAt s.params.memMap c.addr == some .device).map
    fun c => ⟨c.addr, c.stored⟩).reverse ++ s.io

/-- The entry sequence `psssssvvp` from `s` to `t` (R264): a surplus fetch, the frame of R267 with the return
address `ret`, the two bytes of the vector, high byte first, and the fetch of the handler's opcode. -/
def EntrySequence (s t : State) (ret vector : Word) (bus : List BusAccess) : Prop :=
  ∃ surplus hi lo opcode : Byte,
    bus = [⟨.p, s.pc + 1#16, surplus⟩, ⟨.s, s.sp, loByte ret⟩, ⟨.s, s.sp - 1#16, hiByte ret⟩,
      ⟨.s, s.sp - 2#16, s.x⟩, ⟨.s, s.sp - 3#16, s.a⟩, ⟨.s, s.sp - 4#16, s.ccr.toByte⟩, ⟨.v, vector, hi⟩,
      ⟨.v, vector + 1#16, lo⟩, ⟨.p, t.pc, opcode⟩] ∧
    Coherent s bus ∧ t.pc = wordOf hi lo ∧ t.ibuf = opcode

/-- Memory after these cycles, in order (R69). That a store lands only where there is RAM is the model's choice
for ROM and for devices (log entries 13 and 24). -/
def memoryAfter (s : State) (bus : List BusAccess) : Memory :=
  bus.foldl (fun m c => match c.stored with
    | some v => if s.isRam c.addr then m.write c.addr.toNat v else m
    | none => m) s.mem

/-! ## Boundaries -/

/-- The boundary at `s` goes on to the next instruction: the CPU runs, and its inputs ask for neither a
reset at this moment nor a recognised interrupt. -/
def RunsNext (s : State) : Prop :=
  s.inputs.resetRequest ≠ some 0 ∧ s.recognised = none ∧ s.run = .running

/-- No reset falls into a sequence of `n` bus cycles that starts at `s` (R292). -/
def Undisturbed (s : State) (n : Nat) : Prop := ∀ k, s.inputs.resetRequest = some k → n ≤ k

/-- No reset falls into the three bus cycles of a reset sequence that starts in this step. -/
def ResetUndisturbed (s : State) : Prop := ∀ k, s.inputs.resetAgain.head? = some k → 3 ≤ k

/-- The offending bytes of an undefined opcode at `s` (R277, 92 D25). -/
def offendingBytes (s : State) : List Byte :=
  if s.ibuf = 0x9E#8 then [s.ibuf, s.read (s.pc + 1#16)] else [s.ibuf]

/-- The register or flag `v` of a state after reset is what `ResetState` gives it, where it gives one
(R291). -/
def GivenBy {α : Type} (given : Option α) (v : α) : Prop := ∀ w, given = some w → v = w

/-! ## Who writes what (R21 to R23, R28, R68) -/

/-- The instructions whose destination is `A` (R21). -/
def writesA : Instr → Bool
  | .nega | .mul | .coma | .lsra | .rora | .asra | .lsla | .rola | .deca | .dbnza _ | .inca | .clra
  | .div | .nsa | .daa | .rti | .tpa | .pula | .txa | .sub _ | .sbc _ | .and _ | .lda _ | .eor _
  | .adc _ | .ora _ | .add _ => true
  | .brset _ _ _ | .brclr _ _ _ | .bset _ _ | .bclr _ _ | .bra _ | .brn _ | .bhi _ | .bls _
  | .bcc _ | .bcs _ | .bne _ | .beq _ | .bhcc _ | .bhcs _ | .bpl _ | .bmi _ | .bmc _ | .bms _
  | .bil _ | .bih _ | .neg _ | .cbeq _ _ | .com _ | .lsr _ | .sthx _ | .ror _ | .asr _ | .lsl _
  | .rol _ | .dec _ | .dbnz _ _ | .inc _ | .tst _ | .clr _ | .cbeqa _ _ | .ldhx _ | .tsta | .mov _
  | .negx | .cbeqx _ _ | .comx | .lsrx | .rorx | .asrx | .lslx | .rolx | .decx | .dbnzx _ | .incx
  | .tstx | .clrx | .cphx _ | .rts | .swi | .tap | .psha | .pulx | .pshx | .pulh | .pshh | .clrh
  | .stop | .wait | .bge _ | .blt _ | .bgt _ | .ble _ | .txs | .tsx | .tax | .clc | .sec | .cli
  | .sei | .rsp | .nop | .cmp _ | .cpx _ | .bit _ | .ais _ | .bsr _ | .ldx _ | .aix _ | .sta _
  | .jmp _ | .jsr _ | .stx _ => false

/-- The instructions that write `X` (R22). -/
def writesX : Instr → Bool
  | .mul | .ldhx _ | .negx | .comx | .lsrx | .rorx | .asrx | .lslx | .rolx | .decx | .dbnzx _
  | .incx | .clrx | .rti | .pulx | .tsx | .tax | .ldx _ | .aix _ => true
  | .mov f =>
    match f with
    | .dirIxPlus _ | .ixPlusDir _ => true
    | .dirDir _ _ | .immDir _ _ => false
  | .cbeq m _ =>
    match m with
    | .ix1Plus _ | .ixPlus => true
    | .dir _ | .sp1 _ => false
  | .brset _ _ _ | .brclr _ _ _ | .bset _ _ | .bclr _ _ | .bra _ | .brn _ | .bhi _ | .bls _
  | .bcc _ | .bcs _ | .bne _ | .beq _ | .bhcc _ | .bhcs _ | .bpl _ | .bmi _ | .bmc _ | .bms _
  | .bil _ | .bih _ | .neg _ | .com _ | .lsr _ | .sthx _ | .ror _ | .asr _ | .lsl _ | .rol _
  | .dec _ | .dbnz _ _ | .inc _ | .tst _ | .clr _ | .nega | .cbeqa _ _ | .coma | .lsra | .rora
  | .asra | .lsla | .rola | .deca | .dbnza _ | .inca | .tsta | .clra | .cbeqx _ _ | .div | .tstx
  | .nsa | .cphx _ | .daa | .rts | .swi | .tap | .tpa | .pula | .psha | .pshx | .pulh | .pshh
  | .clrh | .stop | .wait | .bge _ | .blt _ | .bgt _ | .ble _ | .txs | .clc | .sec | .cli | .sei
  | .rsp | .nop | .txa | .sub _ | .cmp _ | .sbc _ | .cpx _ | .and _ | .bit _ | .lda _ | .ais _
  | .eor _ | .adc _ | .ora _ | .add _ | .bsr _ | .sta _ | .jmp _ | .jsr _ | .stx _ => false

/-- The instructions that write `H` (R22, R296). -/
def writesH : Instr → Bool
  | .ldhx _ | .div | .pulh | .clrh | .tsx | .aix _ => true
  | .mov f =>
    match f with
    | .dirIxPlus _ | .ixPlusDir _ => true
    | .dirDir _ _ | .immDir _ _ => false
  | .cbeq m _ =>
    match m with
    | .ix1Plus _ | .ixPlus => true
    | .dir _ | .sp1 _ => false
  | .brset _ _ _ | .brclr _ _ _ | .bset _ _ | .bclr _ _ | .bra _ | .brn _ | .bhi _ | .bls _
  | .bcc _ | .bcs _ | .bne _ | .beq _ | .bhcc _ | .bhcs _ | .bpl _ | .bmi _ | .bmc _ | .bms _
  | .bil _ | .bih _ | .neg _ | .com _ | .lsr _ | .sthx _ | .ror _ | .asr _ | .lsl _ | .rol _
  | .dec _ | .dbnz _ _ | .inc _ | .tst _ | .clr _ | .nega | .cbeqa _ _ | .mul | .coma | .lsra
  | .rora | .asra | .lsla | .rola | .deca | .dbnza _ | .inca | .tsta | .clra | .negx | .cbeqx _ _
  | .comx | .lsrx | .rorx | .asrx | .lslx | .rolx | .decx | .dbnzx _ | .incx | .tstx | .clrx | .nsa
  | .cphx _ | .daa | .rti | .rts | .swi | .tap | .tpa | .pula | .psha | .pulx | .pshx | .pshh
  | .stop | .wait | .bge _ | .blt _ | .bgt _ | .ble _ | .txs | .tax | .clc | .sec | .cli | .sei
  | .rsp | .nop | .txa | .sub _ | .cmp _ | .sbc _ | .cpx _ | .and _ | .bit _ | .lda _ | .ais _
  | .eor _ | .adc _ | .ora _ | .add _ | .bsr _ | .ldx _ | .sta _ | .jmp _ | .jsr _ | .stx _ => false

/-- The instructions that write `SP` (R23). -/
def writesSp : Instr → Bool
  | .rti | .rts | .swi | .pula | .psha | .pulx | .pshx | .pulh | .pshh | .txs | .rsp | .ais _
  | .bsr _ | .jsr _ => true
  | .brset _ _ _ | .brclr _ _ _ | .bset _ _ | .bclr _ _ | .bra _ | .brn _ | .bhi _ | .bls _
  | .bcc _ | .bcs _ | .bne _ | .beq _ | .bhcc _ | .bhcs _ | .bpl _ | .bmi _ | .bmc _ | .bms _
  | .bil _ | .bih _ | .neg _ | .cbeq _ _ | .com _ | .lsr _ | .sthx _ | .ror _ | .asr _ | .lsl _
  | .rol _ | .dec _ | .dbnz _ _ | .inc _ | .tst _ | .clr _ | .nega | .cbeqa _ _ | .mul | .coma
  | .lsra | .ldhx _ | .rora | .asra | .lsla | .rola | .deca | .dbnza _ | .inca | .tsta | .mov _
  | .clra | .negx | .cbeqx _ _ | .div | .comx | .lsrx | .rorx | .asrx | .lslx | .rolx | .decx
  | .dbnzx _ | .incx | .tstx | .clrx | .nsa | .cphx _ | .daa | .tap | .tpa | .clrh | .stop | .wait
  | .bge _ | .blt _ | .bgt _ | .ble _ | .tsx | .tax | .clc | .sec | .cli | .sei | .nop | .txa
  | .sub _ | .cmp _ | .sbc _ | .cpx _ | .and _ | .bit _ | .lda _ | .eor _ | .adc _ | .ora _
  | .add _ | .ldx _ | .aix _ | .sta _ | .jmp _ | .stx _ => false

/-- The instructions that write memory (R68). -/
def writesMemory : Instr → Bool
  | .bset _ _ | .bclr _ _ | .neg _ | .com _ | .lsr _ | .sthx _ | .ror _ | .asr _ | .lsl _ | .rol _
  | .dec _ | .dbnz _ _ | .inc _ | .clr _ | .mov _ | .swi | .psha | .pshx | .pshh | .bsr _ | .sta _
  | .jsr _ | .stx _ => true
  | .brset _ _ _ | .brclr _ _ _ | .bra _ | .brn _ | .bhi _ | .bls _ | .bcc _ | .bcs _ | .bne _
  | .beq _ | .bhcc _ | .bhcs _ | .bpl _ | .bmi _ | .bmc _ | .bms _ | .bil _ | .bih _ | .cbeq _ _
  | .tst _ | .nega | .cbeqa _ _ | .mul | .coma | .lsra | .ldhx _ | .rora | .asra | .lsla | .rola
  | .deca | .dbnza _ | .inca | .tsta | .clra | .negx | .cbeqx _ _ | .div | .comx | .lsrx | .rorx
  | .asrx | .lslx | .rolx | .decx | .dbnzx _ | .incx | .tstx | .clrx | .nsa | .cphx _ | .daa | .rti
  | .rts | .tap | .tpa | .pula | .pulx | .pulh | .clrh | .stop | .wait | .bge _ | .blt _ | .bgt _
  | .ble _ | .txs | .tsx | .tax | .clc | .sec | .cli | .sei | .rsp | .nop | .txa | .sub _ | .cmp _
  | .sbc _ | .cpx _ | .and _ | .bit _ | .lda _ | .ais _ | .eor _ | .adc _ | .ora _ | .add _
  | .ldx _ | .aix _ | .jmp _ => false

/-- The instructions whose result sets N and Z together (R28, row N without LSR and CLR). -/
def writesNz : Instr → Bool
  | .neg _ | .com _ | .lsr _ | .sthx _ | .ror _ | .asr _ | .lsl _ | .rol _ | .dec _ | .inc _
  | .tst _ | .clr _ | .nega | .coma | .lsra | .ldhx _ | .rora | .asra | .lsla | .rola | .deca
  | .inca | .tsta | .mov _ | .clra | .negx | .comx | .lsrx | .rorx | .asrx | .lslx | .rolx | .decx
  | .incx | .tstx | .clrx | .cphx _ | .daa | .rti | .tap | .clrh | .sub _ | .cmp _ | .sbc _
  | .cpx _ | .and _ | .bit _ | .lda _ | .eor _ | .adc _ | .ora _ | .add _ | .ldx _ | .sta _
  | .stx _ => true
  | .brset _ _ _ | .brclr _ _ _ | .bset _ _ | .bclr _ _ | .bra _ | .brn _ | .bhi _ | .bls _
  | .bcc _ | .bcs _ | .bne _ | .beq _ | .bhcc _ | .bhcs _ | .bpl _ | .bmi _ | .bmc _ | .bms _
  | .bil _ | .bih _ | .cbeq _ _ | .dbnz _ _ | .cbeqa _ _ | .mul | .dbnza _ | .cbeqx _ _ | .div
  | .dbnzx _ | .nsa | .rts | .swi | .tpa | .pula | .psha | .pulx | .pshx | .pulh | .pshh | .stop
  | .wait | .bge _ | .blt _ | .bgt _ | .ble _ | .txs | .tsx | .tax | .clc | .sec | .cli | .sei
  | .rsp | .nop | .txa | .ais _ | .bsr _ | .aix _ | .jmp _ | .jsr _ => false

/-- The instructions that write N (R28). -/
def writesN (i : Instr) : Bool := writesNz i

/-- The instruction is DIV. -/
def isDiv : Instr → Bool
  | .div => true
  | .brset _ _ _ | .brclr _ _ _ | .bset _ _ | .bclr _ _ | .bra _ | .brn _ | .bhi _ | .bls _
  | .bcc _ | .bcs _ | .bne _ | .beq _ | .bhcc _ | .bhcs _ | .bpl _ | .bmi _ | .bmc _ | .bms _
  | .bil _ | .bih _ | .neg _ | .cbeq _ _ | .com _ | .lsr _ | .sthx _ | .ror _ | .asr _ | .lsl _
  | .rol _ | .dec _ | .dbnz _ _ | .inc _ | .tst _ | .clr _ | .nega | .cbeqa _ _ | .mul | .coma
  | .lsra | .ldhx _ | .rora | .asra | .lsla | .rola | .deca | .dbnza _ | .inca | .tsta | .mov _
  | .clra | .negx | .cbeqx _ _ | .comx | .lsrx | .rorx | .asrx | .lslx | .rolx | .decx | .dbnzx _
  | .incx | .tstx | .clrx | .nsa | .cphx _ | .daa | .rti | .rts | .swi | .tap | .tpa | .pula
  | .psha | .pulx | .pshx | .pulh | .pshh | .clrh | .stop | .wait | .bge _ | .blt _ | .bgt _
  | .ble _ | .txs | .tsx | .tax | .clc | .sec | .cli | .sei | .rsp | .nop | .txa | .sub _ | .cmp _
  | .sbc _ | .cpx _ | .and _ | .bit _ | .lda _ | .ais _ | .eor _ | .adc _ | .ora _ | .add _
  | .bsr _ | .ldx _ | .aix _ | .sta _ | .jmp _ | .jsr _ | .stx _ => false

/-- The instructions that write Z: those of N, and DIV (R28). -/
def writesZ (i : Instr) : Bool := writesNz i || isDiv i

/-- The instructions that write V: the same as those of N (R28). -/
def writesV (i : Instr) : Bool := writesNz i

/-- The instructions that write the half-carry flag (R28). -/
def writesHalf : Instr → Bool
  | .mul | .rti | .tap | .adc _ | .add _ => true
  | .brset _ _ _ | .brclr _ _ _ | .bset _ _ | .bclr _ _ | .bra _ | .brn _ | .bhi _ | .bls _
  | .bcc _ | .bcs _ | .bne _ | .beq _ | .bhcc _ | .bhcs _ | .bpl _ | .bmi _ | .bmc _ | .bms _
  | .bil _ | .bih _ | .neg _ | .cbeq _ _ | .com _ | .lsr _ | .sthx _ | .ror _ | .asr _ | .lsl _
  | .rol _ | .dec _ | .dbnz _ _ | .inc _ | .tst _ | .clr _ | .nega | .cbeqa _ _ | .coma | .lsra
  | .ldhx _ | .rora | .asra | .lsla | .rola | .deca | .dbnza _ | .inca | .tsta | .mov _ | .clra
  | .negx | .cbeqx _ _ | .div | .comx | .lsrx | .rorx | .asrx | .lslx | .rolx | .decx | .dbnzx _
  | .incx | .tstx | .clrx | .nsa | .cphx _ | .daa | .rts | .swi | .tpa | .pula | .psha | .pulx
  | .pshx | .pulh | .pshh | .clrh | .stop | .wait | .bge _ | .blt _ | .bgt _ | .ble _ | .txs | .tsx
  | .tax | .clc | .sec | .cli | .sei | .rsp | .nop | .txa | .sub _ | .cmp _ | .sbc _ | .cpx _
  | .and _ | .bit _ | .lda _ | .ais _ | .eor _ | .ora _ | .bsr _ | .ldx _ | .aix _ | .sta _
  | .jmp _ | .jsr _ | .stx _ => false

/-- The instructions that write I (R28). -/
def writesI : Instr → Bool
  | .rti | .swi | .tap | .stop | .wait | .cli | .sei => true
  | .brset _ _ _ | .brclr _ _ _ | .bset _ _ | .bclr _ _ | .bra _ | .brn _ | .bhi _ | .bls _
  | .bcc _ | .bcs _ | .bne _ | .beq _ | .bhcc _ | .bhcs _ | .bpl _ | .bmi _ | .bmc _ | .bms _
  | .bil _ | .bih _ | .neg _ | .cbeq _ _ | .com _ | .lsr _ | .sthx _ | .ror _ | .asr _ | .lsl _
  | .rol _ | .dec _ | .dbnz _ _ | .inc _ | .tst _ | .clr _ | .nega | .cbeqa _ _ | .mul | .coma
  | .lsra | .ldhx _ | .rora | .asra | .lsla | .rola | .deca | .dbnza _ | .inca | .tsta | .mov _
  | .clra | .negx | .cbeqx _ _ | .div | .comx | .lsrx | .rorx | .asrx | .lslx | .rolx | .decx
  | .dbnzx _ | .incx | .tstx | .clrx | .nsa | .cphx _ | .daa | .rts | .tpa | .pula | .psha | .pulx
  | .pshx | .pulh | .pshh | .clrh | .bge _ | .blt _ | .bgt _ | .ble _ | .txs | .tsx | .tax | .clc
  | .sec | .rsp | .nop | .txa | .sub _ | .cmp _ | .sbc _ | .cpx _ | .and _ | .bit _ | .lda _
  | .ais _ | .eor _ | .adc _ | .ora _ | .add _ | .bsr _ | .ldx _ | .aix _ | .sta _ | .jmp _
  | .jsr _ | .stx _ => false

/-- The instructions that write C (R28). -/
def writesC : Instr → Bool
  | .brset _ _ _ | .brclr _ _ _ | .neg _ | .com _ | .lsr _ | .ror _ | .asr _ | .lsl _ | .rol _
  | .nega | .mul | .coma | .lsra | .rora | .asra | .lsla | .rola | .negx | .div | .comx | .lsrx
  | .rorx | .asrx | .lslx | .rolx | .cphx _ | .daa | .rti | .tap | .clc | .sec | .sub _ | .cmp _
  | .sbc _ | .cpx _ | .adc _ | .add _ => true
  | .bset _ _ | .bclr _ _ | .bra _ | .brn _ | .bhi _ | .bls _ | .bcc _ | .bcs _ | .bne _ | .beq _
  | .bhcc _ | .bhcs _ | .bpl _ | .bmi _ | .bmc _ | .bms _ | .bil _ | .bih _ | .cbeq _ _ | .sthx _
  | .dec _ | .dbnz _ _ | .inc _ | .tst _ | .clr _ | .cbeqa _ _ | .ldhx _ | .deca | .dbnza _ | .inca
  | .tsta | .mov _ | .clra | .cbeqx _ _ | .decx | .dbnzx _ | .incx | .tstx | .clrx | .nsa | .rts
  | .swi | .tpa | .pula | .psha | .pulx | .pshx | .pulh | .pshh | .clrh | .stop | .wait | .bge _
  | .blt _ | .bgt _ | .ble _ | .txs | .tsx | .tax | .cli | .sei | .rsp | .nop | .txa | .and _
  | .bit _ | .lda _ | .ais _ | .eor _ | .ora _ | .bsr _ | .ldx _ | .aix _ | .sta _ | .jmp _
  | .jsr _ | .stx _ => false

/-- The instructions that may go on elsewhere than at the next instruction (R25, R68). -/
def transfersControl : Instr → Bool
  | .brset _ _ _ | .brclr _ _ _ | .bra _ | .brn _ | .bhi _ | .bls _ | .bcc _ | .bcs _ | .bne _
  | .beq _ | .bhcc _ | .bhcs _ | .bpl _ | .bmi _ | .bmc _ | .bms _ | .bil _ | .bih _ | .cbeq _ _
  | .dbnz _ _ | .cbeqa _ _ | .dbnza _ | .cbeqx _ _ | .dbnzx _ | .rti | .rts | .swi | .bge _
  | .blt _ | .bgt _ | .ble _ | .bsr _ | .jmp _ | .jsr _ => true
  | .bset _ _ | .bclr _ _ | .neg _ | .com _ | .lsr _ | .sthx _ | .ror _ | .asr _ | .lsl _ | .rol _
  | .dec _ | .inc _ | .tst _ | .clr _ | .nega | .mul | .coma | .lsra | .ldhx _ | .rora | .asra
  | .lsla | .rola | .deca | .inca | .tsta | .mov _ | .clra | .negx | .div | .comx | .lsrx | .rorx
  | .asrx | .lslx | .rolx | .decx | .incx | .tstx | .clrx | .nsa | .cphx _ | .daa | .tap | .tpa
  | .pula | .psha | .pulx | .pshx | .pulh | .pshh | .clrh | .stop | .wait | .txs | .tsx | .tax
  | .clc | .sec | .cli | .sei | .rsp | .nop | .txa | .sub _ | .cmp _ | .sbc _ | .cpx _ | .and _
  | .bit _ | .lda _ | .ais _ | .eor _ | .adc _ | .ora _ | .add _ | .ldx _ | .aix _ | .sta _
  | .stx _ => false

/-- The forms whose store follows the fetch of the next opcode: the indexed and stack-pointer forms of STA,
STX, CLR and of the read-modify-write group, and every push (R72). -/
def storesAfterFetch : Instr → Bool
  | .sta m | .stx m | .clr m | .neg m | .com m | .lsr m | .ror m | .asr m | .lsl m | .rol m
  | .dec m | .inc m =>
    match m with
    | .dir _ | .ext _ => false
    | .ix2 _ | .ix1 _ | .ix | .sp2 _ | .sp1 _ => true
  | .psha | .pshh | .pshx => true
  | .brset _ _ _ | .brclr _ _ _ | .bset _ _ | .bclr _ _ | .bra _ | .brn _ | .bhi _ | .bls _
  | .bcc _ | .bcs _ | .bne _ | .beq _ | .bhcc _ | .bhcs _ | .bpl _ | .bmi _ | .bmc _ | .bms _
  | .bil _ | .bih _ | .cbeq _ _ | .sthx _ | .dbnz _ _ | .tst _ | .nega | .cbeqa _ _ | .mul | .coma
  | .lsra | .ldhx _ | .rora | .asra | .lsla | .rola | .deca | .dbnza _ | .inca | .tsta | .mov _
  | .clra | .negx | .cbeqx _ _ | .div | .comx | .lsrx | .rorx | .asrx | .lslx | .rolx | .decx
  | .dbnzx _ | .incx | .tstx | .clrx | .nsa | .cphx _ | .daa | .rti | .rts | .swi | .tap | .tpa
  | .pula | .pulx | .pulh | .clrh | .stop | .wait | .bge _ | .blt _ | .bgt _ | .ble _ | .txs | .tsx
  | .tax | .clc | .sec | .cli | .sei | .rsp | .nop | .txa | .sub _ | .cmp _ | .sbc _ | .cpx _
  | .and _ | .bit _ | .lda _ | .ais _ | .eor _ | .adc _ | .ora _ | .add _ | .bsr _ | .ldx _
  | .aix _ | .jmp _ | .jsr _ => false

/-- The read-modify-write operations of R140: the memory form, the form on `A`, the form on `X`, and the
operation of the three. -/
def modifyTable : List ((MemMode → Instr) × Instr × Instr × (Byte → Ccr → Byte × Ccr)) :=
  [(.asr, .asra, .asrx, asr8), (.com, .coma, .comx, com8), (.dec, .deca, .decx, dec8),
   (.inc, .inca, .incx, inc8), (.lsl, .lsla, .lslx, lsl8), (.lsr, .lsra, .lsrx, lsr8),
   (.neg, .nega, .negx, neg8), (.rol, .rola, .rolx, rol8), (.ror, .rora, .rorx, ror8)]

/-- The two-byte branches and the condition each takes from the state it starts in (R171 to R192). -/
def branchTable (s : State) : List ((Byte → Instr) × Prop) :=
  [(.bcc, s.ccr.c = false), (.bcs, s.ccr.c = true), (.beq, s.ccr.z = true), (.bne, s.ccr.z = false),
   (.bge, s.ccr.n = s.ccr.v), (.blt, s.ccr.n ≠ s.ccr.v),
   (.bgt, s.ccr.z = false ∧ s.ccr.n = s.ccr.v), (.ble, s.ccr.z = true ∨ s.ccr.n ≠ s.ccr.v),
   (.bhcc, s.ccr.h = false), (.bhcs, s.ccr.h = true),
   (.bhi, s.ccr.c = false ∧ s.ccr.z = false), (.bls, s.ccr.c = true ∨ s.ccr.z = true),
   (.bih, s.inputs.irqPin = true), (.bil, s.inputs.irqPin = false),
   (.bmc, s.ccr.i = false), (.bms, s.ccr.i = true), (.bmi, s.ccr.n = true), (.bpl, s.ccr.n = false),
   (.bra, True), (.brn, False)]

/-- The 41 second bytes that the prefix `$9E` has (R98). -/
def pageTwo : List Byte :=
  [0x60#8, 0x61#8, 0x63#8, 0x64#8, 0x66#8, 0x67#8, 0x68#8, 0x69#8, 0x6A#8, 0x6B#8, 0x6C#8, 0x6D#8, 0x6F#8,
   0xD0#8, 0xD1#8, 0xD2#8, 0xD3#8, 0xD4#8, 0xD5#8, 0xD6#8, 0xD7#8, 0xD8#8, 0xD9#8, 0xDA#8, 0xDB#8, 0xDE#8, 0xDF#8,
   0xE0#8, 0xE1#8, 0xE2#8, 0xE3#8, 0xE4#8, 0xE5#8, 0xE6#8, 0xE7#8, 0xE8#8, 0xE9#8, 0xEA#8, 0xEB#8, 0xEE#8, 0xEF#8]

/-- The first bytes with no row in Table 1 (R97, R103). -/
def undefinedFirst : List Byte := [0x32#8, 0x3E#8, 0x82#8, 0x8D#8, 0x96#8, 0xAC#8]

/-! ## Cycle codes -/

/-- The column "Cycle code" of spec/opcode_table.json, every form of every instruction, grouped by code. -/
def cycleTable (dd ff ii rr : Byte) (w : Word) (n : Fin 8) : List (List BusCycle × List Instr) :=
  [([.p, .r, .p, .d, .p], [.brset n dd rr, .brclr n dd rr]),
   ([.p, .r, .w, .p], [.bset n dd, .bclr n dd, .neg (.dir dd), .com (.dir dd), .lsr (.dir dd),
      .ror (.dir dd), .asr (.dir dd), .lsl (.dir dd), .rol (.dir dd), .dec (.dir dd), .inc (.dir dd),
      .mov (.dirIxPlus dd), .dbnz .ix rr, .mov (.ixPlusDir dd)]),
   ([.p, .d, .p], [.bra rr, .brn rr, .bhi rr, .bls rr, .bcc rr, .bcs rr, .bne rr, .beq rr, .bhcc rr,
      .bhcs rr, .bpl rr, .bmi rr, .bmc rr, .bms rr, .bil rr, .bih rr, .dbnza rr, .dbnzx rr, .bge rr,
      .blt rr, .bgt rr, .ble rr, .jmp (.ix1 ff)]),
   ([.p, .p, .r, .d, .p], [.cbeq (.dir dd) rr, .cbeq (.ix1Plus ff) rr]),
   ([.p, .w, .w, .p], [.sthx dd]),
   ([.p, .p, .r, .w, .p], [.dbnz (.dir dd) rr, .dbnz (.ix1 ff) rr]),
   ([.p, .r, .p], [.tst (.dir dd), .sub (.mem (.dir dd)), .cmp (.mem (.dir dd)), .sbc (.mem (.dir dd)),
      .cpx (.mem (.dir dd)), .and (.mem (.dir dd)), .bit (.mem (.dir dd)), .lda (.mem (.dir dd)),
      .eor (.mem (.dir dd)), .adc (.mem (.dir dd)), .ora (.mem (.dir dd)), .add (.mem (.dir dd)),
      .ldx (.mem (.dir dd))]),
   ([.p, .w, .p], [.clr (.dir dd), .sta (.dir dd), .stx (.dir dd)]),
   ([.p], [.nega, .coma, .lsra, .rora, .asra, .lsla, .rola, .deca, .inca, .tsta, .clra, .negx, .comx,
      .lsrx, .rorx, .asrx, .lslx, .rolx, .decx, .incx, .tstx, .clrx, .tpa, .clrh, .stop, .wait, .tax,
      .clc, .sec, .rsp, .nop, .txa]),
   ([.p, .p, .d, .p], [.cbeqa ii rr, .cbeqx ii rr, .jmp (.ix2 w)]),
   ([.p, .p, .d, .d, .d], [.mul]),
   ([.p, .p, .p], [.ldhx (.imm w), .cphx (.imm w), .jmp (.ext w)]),
   ([.p, .r, .p, .w, .p], [.mov (.dirDir dd ff)]),
   ([.p, .d, .p, .d, .d, .d, .d], [.div]),
   ([.p, .r, .r, .p], [.ldhx (.dir dd), .cphx (.dir dd)]),
   ([.p, .p, .r, .w], [.neg (.ix1 ff), .com (.ix1 ff), .lsr (.ix1 ff), .ror (.ix1 ff), .asr (.ix1 ff),
      .lsl (.ix1 ff), .rol (.ix1 ff), .dec (.ix1 ff), .inc (.ix1 ff)]),
   ([.p, .p, .d], [.nsa]),
   ([.p, .p, .r], [.tst (.ix1 ff), .sub (.mem (.ix1 ff)), .cmp (.mem (.ix1 ff)), .sbc (.mem (.ix1 ff)),
      .cpx (.mem (.ix1 ff)), .and (.mem (.ix1 ff)), .bit (.mem (.ix1 ff)), .lda (.mem (.ix1 ff)),
      .eor (.mem (.ix1 ff)), .adc (.mem (.ix1 ff)), .ora (.mem (.ix1 ff)), .add (.mem (.ix1 ff)),
      .ldx (.mem (.ix1 ff))]),
   ([.p, .p, .w, .p], [.mov (.immDir ii dd), .sta (.ext w), .stx (.ext w)]),
   ([.p, .p, .w], [.clr (.ix1 ff), .sta (.ix1 ff), .stx (.ix1 ff)]),
   ([.p, .r, .w], [.neg .ix, .com .ix, .lsr .ix, .ror .ix, .asr .ix, .lsl .ix, .rol .ix, .dec .ix,
      .inc .ix]),
   ([.p, .r, .d, .p], [.cbeq .ixPlus rr]),
   ([.p, .p], [.daa, .txs, .tsx, .sub (.imm ii), .cmp (.imm ii), .sbc (.imm ii), .cpx (.imm ii),
      .and (.imm ii), .bit (.imm ii), .lda (.imm ii), .ais ii, .eor (.imm ii), .adc (.imm ii),
      .ora (.imm ii), .add (.imm ii), .ldx (.imm ii), .aix ii, .jmp (.dir dd), .jmp .ix]),
   ([.p, .r], [.tst .ix, .sub (.mem .ix), .cmp (.mem .ix), .sbc (.mem .ix), .cpx (.mem .ix),
      .and (.mem .ix), .bit (.mem .ix), .lda (.mem .ix), .eor (.mem .ix), .adc (.mem .ix),
      .ora (.mem .ix), .add (.mem .ix), .ldx (.mem .ix)]),
   ([.p, .w], [.clr .ix, .sta .ix, .stx .ix]),
   ([.p, .u, .u, .u, .u, .u, .p], [.rti]),
   ([.p, .u, .u, .p], [.rts]),
   ([.p, .s, .s, .s, .s, .s, .v, .v, .p], [.swi]),
   ([.p, .d], [.tap, .cli, .sei]),
   ([.p, .u], [.pula, .pulx, .pulh]),
   ([.p, .s], [.psha, .pshx, .pshh]),
   ([.p, .s, .s, .p], [.bsr rr, .jsr (.dir dd), .jsr .ix]),
   ([.p, .p, .r, .p], [.sub (.mem (.ext w)), .cmp (.mem (.ext w)), .sbc (.mem (.ext w)),
      .cpx (.mem (.ext w)), .and (.mem (.ext w)), .bit (.mem (.ext w)), .lda (.mem (.ext w)),
      .eor (.mem (.ext w)), .adc (.mem (.ext w)), .ora (.mem (.ext w)), .add (.mem (.ext w)),
      .ldx (.mem (.ext w))]),
   ([.p, .p, .s, .s, .p], [.jsr (.ext w)]),
   ([.p, .p, .p, .r], [.sub (.mem (.ix2 w)), .cmp (.mem (.ix2 w)), .sbc (.mem (.ix2 w)),
      .cpx (.mem (.ix2 w)), .and (.mem (.ix2 w)), .bit (.mem (.ix2 w)), .lda (.mem (.ix2 w)),
      .eor (.mem (.ix2 w)), .adc (.mem (.ix2 w)), .ora (.mem (.ix2 w)), .add (.mem (.ix2 w)),
      .ldx (.mem (.ix2 w)), .tst (.sp1 ff), .sub (.mem (.sp1 ff)), .cmp (.mem (.sp1 ff)),
      .sbc (.mem (.sp1 ff)), .cpx (.mem (.sp1 ff)), .and (.mem (.sp1 ff)), .bit (.mem (.sp1 ff)),
      .lda (.mem (.sp1 ff)), .eor (.mem (.sp1 ff)), .adc (.mem (.sp1 ff)), .ora (.mem (.sp1 ff)),
      .add (.mem (.sp1 ff)), .ldx (.mem (.sp1 ff))]),
   ([.p, .p, .p, .w], [.sta (.ix2 w), .stx (.ix2 w), .clr (.sp1 ff), .sta (.sp1 ff), .stx (.sp1 ff)]),
   ([.p, .p, .s, .s, .d, .p], [.jsr (.ix2 w)]),
   ([.p, .s, .s, .d, .p], [.jsr (.ix1 ff)]),
   ([.p, .p, .p, .r, .w], [.neg (.sp1 ff), .com (.sp1 ff), .lsr (.sp1 ff), .ror (.sp1 ff), .asr (.sp1 ff),
      .lsl (.sp1 ff), .rol (.sp1 ff), .dec (.sp1 ff), .inc (.sp1 ff)]),
   ([.p, .p, .p, .r, .d, .p], [.cbeq (.sp1 ff) rr]),
   ([.p, .p, .p, .r, .w, .p], [.dbnz (.sp1 ff) rr]),
   ([.p, .p, .p, .p, .r], [.sub (.mem (.sp2 w)), .cmp (.mem (.sp2 w)), .sbc (.mem (.sp2 w)),
      .cpx (.mem (.sp2 w)), .and (.mem (.sp2 w)), .bit (.mem (.sp2 w)), .lda (.mem (.sp2 w)),
      .eor (.mem (.sp2 w)), .adc (.mem (.sp2 w)), .ora (.mem (.sp2 w)), .add (.mem (.sp2 w)),
      .ldx (.mem (.sp2 w))]),
   ([.p, .p, .p, .p, .w], [.sta (.sp2 w), .stx (.sp2 w)])]

/-! ## The invariant -/

/-- The invariant of the machine: memory has its canonical form; the vectors of the parameters lie in the
page `$FFxx` (R4, R52); a halted CPU has its interrupts enabled and unprotected (R251, R253, R302); the
protection of `CliDelay` stands only where the parameter asks for it and I is clear (R231); the devices
have seen accesses at their own addresses only (R51). -/
abbrev Inv (s : State) : Prop :=
  s.mem.wf = true ∧ s.params.wf = true ∧
    (s.run ≠ .running → s.ccr.i = false ∧ s.inhibit = false) ∧
    (s.inhibit = true → s.params.cliDelay = true ∧ s.ccr.i = false) ∧
    (s.io.all fun e => regionKindAt s.params.memMap e.addr == some .device) = true

/-! ## Safe runs -/

/-- The first `n` steps from `s` all answer a next state: no undefined opcode is met (R277). -/
def RunsSafely : Nat → State → Prop
  | 0, _ => True
  | n + 1, s => ∃ t, step s = .next t ∧ RunsSafely n t

end Sys2Proof.Safety
end

