-- ==== Sys2Proof/Certificates/Slice0/Obligations.lean ====
section
/-! DEFINITION. The statements for the provers. In every statement about an instruction, `t` is the next
state; `Registers`, `StoredAt`, `SameBytes`, `SameSurroundings`, `GoesTo` and `Coherent` are those of
Sys2Proof/Safety.lean. A byte that an instruction reads is the one its bus cycle finds, in the state after
the cycles before it: `(s.fetch n).read a` after `n` program fetches. What a store does where there is no
RAM is the last clause of WritersOfRegistersAndMemory. -/

open Sys2Proof Sys2Proof.Machine Sys2Proof.Safety

/-! ## Encoding -/

/-- Decoding the object code of a well-formed instruction gives it back, whatever bytes follow (R81, R97,
R98, R100). -/
def Obligations.DecodeOfEncode : Prop :=
  ∀ (i : Instr) (rest : List Byte), WellFormed i → decode (encode i ++ rest) = .ok (i, rest)

/-- What decodes is the object code of a well-formed instruction: no two byte strings spell one
instruction, and the decoder takes nothing else (R99, R103, R104). -/
def Obligations.DecodedIsEncoded : Prop :=
  ∀ (bs rest : List Byte) (i : Instr), decode bs = .ok (i, rest) → WellFormed i ∧ bs = encode i ++ rest

/-- The six first bytes and the second bytes after `$9E` outside the 41 of R98 are rejected by name, and of
any four bytes only these are (R97, R98, R103). -/
def Obligations.UndefinedOpcodesRejected : Prop :=
  ∀ b0 b1 b2 b3 : Byte,
    (b0 ∈ undefinedFirst → decode [b0, b1, b2, b3] = .error (.illegalOpcode b0)) ∧
    (b0 = 0x9E#8 ∧ b1 ∉ pageTwo → decode [b0, b1, b2, b3] = .error (.illegalPrefixed b1)) ∧
    (b0 ∉ undefinedFirst → (b0 = 0x9E#8 → b1 ∈ pageTwo) →
      ∃ i rest, decode [b0, b1, b2, b3] = .ok (i, rest))

/-- A few words written out from the object-code column decode to what they stand for (R97, R98). -/
def Obligations.WrittenOutWords : Prop :=
  decode [0x11#8, 0x01#8] = .ok (.bclr 0 0x01#8, []) ∧
  decode [0x20#8, 0xFC#8] = .ok (.bra 0xFC#8, []) ∧
  decode [0x9E#8, 0x66#8, 0x03#8] = .ok (.ror (.sp1 0x03#8), []) ∧
  decode [0x6E#8, 0x04#8, 0x90#8] = .ok (.mov (.immDir 0x04#8 0x90#8), []) ∧
  decode [0xCD#8, 0x20#8, 0x00#8] = .ok (.jsr (.ext 0x2000#16), []) ∧
  decode [0x9E#8, 0xD6#8, 0x01#8, 0x00#8] = .ok (.lda (.mem (.sp2 0x0100#16)), []) ∧
  decode [0x83#8] = .ok (.swi, [])

/-- The operand bytes of each memory mode and the effective address they give, modulo 2^16 (R86 to R92). -/
def Obligations.EffectiveAddresses : Prop :=
  ∀ (s : State) (b c : Byte),
    let hx := s.h.toNat * 256 + s.x.toNat
    let address (bs : List Byte) (n : Nat) : Prop :=
      ∃ m, decode bs = .ok (.lda (.mem m), []) ∧ (effectiveAddress m s).toNat = n % 65536
    address [0xB6#8, b] b.toNat ∧
    address [0xC6#8, b, c] (b.toNat * 256 + c.toNat) ∧
    address [0xF6#8] hx ∧
    address [0xE6#8, b] (hx + b.toNat) ∧
    address [0xD6#8, b, c] (hx + (b.toNat * 256 + c.toNat)) ∧
    address [0x9E#8, 0xE6#8, b] (s.sp.toNat + b.toNat) ∧
    address [0x9E#8, 0xD6#8, b, c] (s.sp.toNat + (b.toNat * 256 + c.toNat))

/-- The cycle code of every form is that of its row of the opcode table, and every well-formed instruction
is in one of these rows; length and duration of an instruction are fixed by its opcode alone: by the first
byte, or by the second when the first is the prefix `$9E`; SWI and interrupt entry take 9 cycles, RTI and
DIV 7, MUL 5, reset 3 (R80, R304; the tables of 40 to 47). -/
def Obligations.LengthAndCyclesByOpcode : Prop :=
  (∀ (dd ff ii rr : Byte) (w : Word) (n : Fin 8), ∀ row ∈ cycleTable dd ff ii rr w n, ∀ i ∈ row.2,
    cycleCode i = row.1) ∧
  (∀ i : Instr, WellFormed i →
    ∃ (dd ff ii rr : Byte) (w : Word) (n : Fin 8), ∃ row ∈ cycleTable dd ff ii rr w n, i ∈ row.2) ∧
  (∀ i j : Instr, WellFormed i → WellFormed j → (encode i)[0]? = (encode j)[0]? →
    ((encode i)[0]? = some 0x9E#8 → (encode i)[1]? = (encode j)[1]?) →
    (encode i).length = (encode j).length ∧ cycleCount i = cycleCount j) ∧
  cycleCount .swi = 9 ∧ cycleCount .rti = 7 ∧ cycleCount .mul = 5 ∧ cycleCount .div = 7 ∧
  entryCode.length = 9 ∧ resetCode.length = 3

/-! ## The step -/

/-- At a boundary that goes on to the next instruction, a step is `exec` of the instruction the fetched
bytes decode to, whose program fetches move just these bytes: the protection of `CliDelay` ends before it, and
its bus cycles, counted and seen by the devices, are all the step makes; an access at a marked address is the
step's fault, and a stop of the meaning is the stop of the step (R30, R61, R100, R262, R304; 92 D12). A reset
that falls into the instruction is ResetRegistersAndMemory. -/
def Obligations.StepRunsTheDecodedInstruction : Prop :=
  ∀ (s : State) (i : Instr) (rest : List Byte), RunsNext s.sampleInputs →
    decode s.sampleInputs.fetchBytes = .ok (i, rest) →
    (∀ t, exec i (s.sampleInputs.setInhibit false) = .next t →
      (((t.bus.filter fun c => c.kind == .p).map BusAccess.data).take ((encode i).length - 1) =
        (encode i).tail) ∧
      (Undisturbed s.sampleInputs (cycleCount i) →
        (s.firstMarked t.bus = none → step s = .next t) ∧
        (∀ a, s.firstMarked t.bus = some a → step s = .fault (.markedAddress s.pc a)))) ∧
    (∀ f, exec i (s.sampleInputs.setInhibit false) = .fault f → step s = .fault f) ∧
    (∀ r, exec i (s.sampleInputs.setInhibit false) = .refused r → step s = .refused r)

/-- With all of memory RAM and STOP permitted, the step after `withFetchWord` runs the instruction that
`decodeTableWord` reads from the word (log entry 12 says how the table's numbers are laid out). -/
def Obligations.StepRunsThePlacedWord : Prop :=
  ∀ (s : State) (nbits w : Nat) (i : Instr), s.mem.wf = true → s.params.memMap = [] → s.schedule = [] →
    RunsNext s → Undisturbed s (cycleCount i) → s.params.stopBehaviour = .asWait →
    decodeTableWord nbits w = some i →
    ∃ t, exec i ((s.withFetchWord nbits w).sampleInputs.setInhibit false) = .next t ∧
      step (s.withFetchWord nbits w) = .next t

/-- Where a step stops: at an address that `MemMap` marks `fault`, at an undefined opcode, which is
recorded with `pc`, or at STOP where `StopBehaviour` refuses it; else it answers a next state. A running CPU
that meets an undefined opcode at a boundary with nothing else to do faults there, or takes the reset
sequence, as the parameter says; never does it go on as if the byte were an instruction (R103, R276, R277;
92 D4, D9, D12). -/
def Obligations.WhereAStepStops : Prop :=
  (∀ s : State,
    (∃ t, step s = .next t) ∨
      (∃ a, regionKindAt s.params.memMap a = some .fault ∧ step s = .fault (.markedAddress s.pc a)) ∨
      (RunsNext s.sampleInputs ∧ s.ibuf = 0x8E#8 ∧ s.params.stopBehaviour = .refuse ∧
        step s = .refused .stopNotPermitted) ∨
      (RunsNext s.sampleInputs ∧ s.params.illegalOpcode = .fault ∧
        ((s.ibuf ∈ undefinedFirst ∧ step s = .fault (.illegalOpcode s.pc [s.ibuf])) ∨
         (s.ibuf = 0x9E#8 ∧ s.read (s.pc + 1#16) ∉ pageTwo ∧
           step s = .fault (.illegalOpcode s.pc [0x9E#8, s.read (s.pc + 1#16)]))))) ∧
  (∀ s : State, RunsNext s.sampleInputs →
    (s.ibuf ∈ undefinedFirst ∨ (s.ibuf = 0x9E#8 ∧ s.read (s.pc + 1#16) ∉ pageTwo)) →
    (s.ibuf = 0x9E#8 → regionKindAt s.params.memMap (s.pc + 1#16) ≠ some .fault) →
    step s = match s.params.illegalOpcode with
      | .fault => .fault (.illegalOpcode s.pc (offendingBytes s))
      | .reset =>
        (if s.ibuf = 0x9E#8 then s.sampleInputs.fetchByte 1 else s.sampleInputs).resetSequence)

/-- The bus cycles of an instruction, one for each letter of its cycle code (R60, R68, R304): each is counted,
each one at a device is seen by it, in order, and every cycle that reads finds what its address holds after
all the cycles before it, the instruction's own stores and device accesses among them (R69); the stores are
those that make its memory, in order; the last `p` fetches the opcode of the next instruction, and every
earlier one the next byte after the opcode, at least as many as the instruction has (R61, D14); the `s` cycles
walk down from `SP` and the `u` cycles up from `SP + 1` (R64, R65); a `d` repeats the address before it, or
reads at the decremented `SP` after an `s` (R67). Then, instruction by instruction and whatever `MemMap` has
at the address, the addresses and bytes of the `r` cycles (R62), of the `w` cycles (R63) and of the `s`
cycles, and the addresses of the `v` cycles (R66). The model's choice, and no rule of the spec: that only RAM
takes a store, so that a store to ROM changes nothing (log entry 13) and one to a device changes no byte of
memory and stands in the devices' record `io` (log entry 24). -/
def Obligations.BusCyclesMakeTheInstruction : Prop :=
  ∀ (i : Instr) (s t : State), exec i s = .next t →
    let bus := cyclesOf s t
    let at_ (k : BusCycle) : List Word := (bus.filter fun c => c.kind == k).map BusAccess.addr
    let moved (k : BusCycle) : List (Word × Byte) :=
      (bus.filter fun c => c.kind == k).map fun c => (c.addr, c.data)
    t.bus = s.bus ++ bus ∧ bus.map BusAccess.kind = cycleCode i ∧
    t.cycles = s.cycles + cycleCount i ∧ t.io = devicesSeen s bus ∧
    Coherent s bus ∧ t.mem = memoryAfter s bus ∧
    (moved .p).getLast? = some (t.pc, t.ibuf) ∧
    (∀ k, k + 1 < (at_ .p).length → (at_ .p)[k]? = some (s.pc + BitVec.ofNat 16 (k + 1))) ∧
    (WellFormed i → (encode i).length ≤ (at_ .p).length) ∧
    (∀ k, k < (at_ .s).length → (at_ .s)[k]? = some (s.sp - BitVec.ofNat 16 k)) ∧
    (∀ k, k < (at_ .u).length → (at_ .u)[k]? = some (s.sp + BitVec.ofNat 16 (k + 1))) ∧
    (∀ (k : Nat) (c : BusAccess), bus[k + 1]? = some c → c.kind = .d →
      ∃ b, bus[k]? = some b ∧ c.addr = if b.kind = .s then b.addr - 1#16 else b.addr) ∧
    -- the register/memory group and TST read, STA, STX and CLR write
    (∀ m : MemMode, i ∈ [Instr.lda (.mem m), .ldx (.mem m), .adc (.mem m), .add (.mem m), .and (.mem m),
        .bit (.mem m), .cmp (.mem m), .cpx (.mem m), .eor (.mem m), .ora (.mem m), .sbc (.mem m),
        .sub (.mem m), .tst m] → moved .r = [(effectiveAddress m s, memoryValue m s)]) ∧
    (∀ (m : MemMode) (v : Byte), (i, v) ∈ [(Instr.sta m, s.a), (.stx m, s.x), (.clr m, 0#8)] →
      moved .w = [(effectiveAddress m s, v)]) ∧
    -- read-modify-write: the nine operations, DBNZ, BSET and BCLR
    (∀ m : MemMode, ∀ row ∈ modifyTable, i = row.1 m →
      moved .r = [(effectiveAddress m s, memoryValue m s)] ∧
      moved .w = [(effectiveAddress m s, (row.2.2.2 (memoryValue m s) s.ccr).1)]) ∧
    (∀ (m : MemMode) (rr : Byte), i = .dbnz m rr →
      let v := (s.fetch (modeLength m)).read (effectiveAddress m s)
      moved .r = [(effectiveAddress m s, v)] ∧ moved .w = [(effectiveAddress m s, v - 1#8)]) ∧
    (∀ (n : Fin 8) (dd : Byte) (on : Bool),
      (i = .bset n dd ∧ on = true) ∨ (i = .bclr n dd ∧ on = false) →
      let v := (s.fetch 1).read (dd.setWidth 16)
      moved .r = [(dd.setWidth 16, v)] ∧
      ∃ v' : Byte, moved .w = [(dd.setWidth 16, v')] ∧
        ∀ k, k < 8 → v'.getLsbD k = if k = n.val then on else v.getLsbD k) ∧
    -- reading and testing: BRSET, BRCLR and CBEQ
    (∀ (n : Fin 8) (dd rr : Byte), i ∈ [Instr.brset n dd rr, .brclr n dd rr] →
      moved .r = [(dd.setWidth 16, (s.fetch 1).read (dd.setWidth 16))]) ∧
    (∀ (m : CbeqMode) (rr : Byte), i = .cbeq m rr → moved .r = match m with
      | .dir dd => [(dd.setWidth 16, (s.fetch 2).read (dd.setWidth 16))]
      | .ix1Plus ff => [(s.hx + ff.setWidth 16, (s.fetch 2).read (s.hx + ff.setWidth 16))]
      | .ixPlus => [(s.hx, (s.fetch 1).read s.hx)]
      | .sp1 ff => [(s.sp + ff.setWidth 16, (s.fetch 3).read (s.sp + ff.setWidth 16))]) ∧
    -- two bytes: LDHX, CPHX and STHX
    (∀ dd : Byte, i ∈ [Instr.ldhx (.dir dd), .cphx (.dir dd)] →
      moved .r = [(dd.setWidth 16, hiByte (source16Value (.dir dd) s)),
        (dd.setWidth 16 + 1#16, loByte (source16Value (.dir dd) s))]) ∧
    (∀ dd : Byte, i = .sthx dd → moved .w = [(dd.setWidth 16, s.h), (dd.setWidth 16 + 1#16, s.x)]) ∧
    -- MOV
    (∀ f : MoveForm, i = .mov f →
      let v (a : Word) : Byte := (s.fetch 1).read a
      match f with
      | .dirDir src dst =>
        moved .r = [(src.setWidth 16, v (src.setWidth 16))] ∧ moved .w = [(dst.setWidth 16, v (src.setWidth 16))]
      | .dirIxPlus src =>
        moved .r = [(src.setWidth 16, v (src.setWidth 16))] ∧ moved .w = [(s.hx, v (src.setWidth 16))]
      | .immDir ii dst => moved .r = [] ∧ moved .w = [(dst.setWidth 16, ii)]
      | .ixPlusDir dst => moved .r = [(s.hx, v s.hx)] ∧ moved .w = [(dst.setWidth 16, v s.hx)]) ∧
    -- the stack and SWI's vector
    (∀ v : Byte, (i, v) ∈ [(Instr.psha, s.a), (.pshh, s.h), (.pshx, s.x)] → moved .s = [(s.sp, v)]) ∧
    (∀ ret : Word, (∃ m, i = .jsr m ∧ ret = s.pc + BitVec.ofNat 16 (modeLength m)) ∨
        (∃ rr, i = .bsr rr ∧ ret = s.pc + 2#16) →
      moved .s = [(s.sp, loByte ret), (s.sp - 1#16, hiByte ret)]) ∧
    (i = .swi → EntrySequence s t (s.pc + 1#16) s.params.vecSwi bus)

/-- The reset sequence `vvp`: whatever else is pending and in every run state, a reset request at a boundary
loads `pc` from `$FFFE`:`$FFFF` and the instruction buffer from there, in three bus cycles, stacks
nothing, and leaves the CPU running (R271, R290). The three reads are of memory after the reset. A reset that
falls into these three cycles is ResetRegistersAndMemory. -/
def Obligations.ResetSequence : Prop :=
  ∀ s : State, s.sampleInputs.inputs.resetRequest = some 0 → ResetUndisturbed s.sampleInputs →
    s.firstMarked s.sampleInputs.takeReset.bus = none →
    ∃ (t : State) (hi lo opcode : Byte), step s = .next t ∧
      t.bus = [⟨.v, 0xFFFE#16, hi⟩, ⟨.v, 0xFFFF#16, lo⟩, ⟨.p, t.pc, opcode⟩] ∧
      Coherent (s.setMem t.mem) t.bus ∧ t.pc = wordOf hi lo ∧ t.ibuf = opcode ∧
      (s.params.resetState.ram = .kept → t.mem = s.mem) ∧
      t.run = .running ∧ t.cycles = s.cycles + 3 ∧ t.io = devicesSeen s t.bus

/-- What a reset leaves, and when it falls. A reset sequence that answers a next state leaves every register
but `pc` at what `ResetState` gives it, RAM as `ResetState` says (nothing is stated of what it leaves
unspecified), all other memory as it was, and the parameters and inputs; no boundary is protected. A reset
that falls into the three cycles of the reset sequence takes the CPU after the first `k` of them and the
sequence begins again: devices have seen these, memory is as the first reset leaves it, and the other requests
fall into the new sequence (R292). A request `some k` within an instruction or an interrupt entry takes the
CPU after the first `k` of its bus cycles: memory has the stores among these and no other, and devices have
seen these (R291, R292; log entries 7, 9 and 16). For the entry that ends a wait or a stop, that these cycles
are nine is the model's choice (log entry 22). So is it that only RAM takes a store: one to ROM among these
cycles changes nothing (log entry 13), and one to a device changes no byte of memory and stands in the
devices' record `io` (log entry 24). -/
def Obligations.ResetRegistersAndMemory : Prop :=
  (∀ c t : State, c.resetSequence = .next t →
    let r := c.params.resetState
    GivenBy r.a t.a ∧ GivenBy r.x t.x ∧ GivenBy r.h t.h ∧ GivenBy r.sp t.sp ∧ GivenBy r.v t.ccr.v ∧
    GivenBy r.half t.ccr.h ∧ GivenBy r.i t.ccr.i ∧ GivenBy r.n t.ccr.n ∧ GivenBy r.z t.ccr.z ∧
    GivenBy r.c t.ccr.c ∧
    (∀ b : Word, c.isRam b = false ∨ r.ram = .kept → t.mem.read b.toNat = c.mem.read b.toNat) ∧
    (∀ (b : Word) (m : List Host.Cell), c.isRam b = true → r.ram = .given m →
      t.mem.read b.toNat = Memory.read m b.toNat) ∧
    t.run = .running ∧ t.inhibit = false ∧ t.params = c.params ∧ t.inputs = c.inputs ∧
    t.schedule = c.schedule ∧ c.cycles + 3 ≤ t.cycles ∧ (ResetUndisturbed c → t.cycles = c.cycles + 3)) ∧
  (∀ (c : State) (k : Nat) (again : List Nat), c.inputs.resetAgain = k :: again → k < 3 →
    let made := c.resetCycles.take k
    let d := c.resetBegun k
    c.resetSequence = c.finish (d.takeResets again) ∧ d.takeResets [] = d.takeReset ∧
      made.map BusAccess.addr = [0xFFFE#16, 0xFFFF#16].take k ∧ d.bus = c.bus ++ made ∧
      d.cycles = c.cycles + k ∧ d.io = devicesSeen c made ∧ Coherent (c.setMem d.mem) made ∧
      d.params = c.params ∧
      (∀ b : Word, c.isRam b = false ∨ c.params.resetState.ram = .kept →
        d.mem.read b.toNat = c.mem.read b.toNat)) ∧
  (∀ (s t : State) (k : Nat), s.sampleInputs.inputs.resetRequest = some k →
    (k = 0 ∨
      (∃ i rest, RunsNext s.sampleInputs ∧ decode s.sampleInputs.fetchBytes = .ok (i, rest) ∧
        exec i (s.sampleInputs.setInhibit false) = .next t ∧ k < cycleCount i) ∨
      (∃ src, s.sampleInputs.recognised = some src ∧ t = s.sampleInputs.takeInterrupt src ∧ k < 9)) →
    s.firstMarked (t.bus.take k) = none →
    let c := s.sampleInputs.partWay (t.bus.take k)
    step s = c.resetSequence ∧ c.mem = memoryAfter s (t.bus.take k) ∧ c.params = s.params ∧
      (k ≤ t.bus.length → c.cycles = s.cycles + k) ∧ c.io = devicesSeen s (t.bus.take k))

/-- When an interrupt is recognised and which: I is clear, the boundary is not protected, and the source
is the first of `IntSources` that requests and, if the CPU is stopped, can wake it (R263, R268, R274). -/
def Obligations.RecognisedSource : Prop :=
  ∀ (s : State) (src : Config.IntSource),
    let asks (k : Nat) (q : Config.IntSource) : Prop :=
      s.params.intSources[k]? = some q ∧ s.inputs.requests[k]? = some true ∧
        (s.run = .stopped → q.wakesStop = true)
    s.recognised = some src ↔
      s.ccr.i = false ∧ s.inhibit = false ∧
        ∃ k, asks k src ∧ ∀ j, j < k → ∀ q, ¬ asks j q

/-- Interrupt entry from any run state: return address, `X`, `A` and CCR are stacked as R267 lays them
out, I is set, `pc` comes from the vector as it reads after the pushes, `H`, `A`, `X`, the other flags and
every other byte stay, the request stays, and the CPU runs (R264, R266, R267, R273, R279, R281). Its nine
bus cycles are those of R264 from `running`. That the entry which ends a wait or a stop makes these same nine
accesses is the model's choice (R253 and 92 D24 leave it open; log entry 22), and so are, from a halted CPU,
the clauses on the accesses and on the devices, and the two premises on a reset and on marked addresses. -/
def Obligations.InterruptEntry : Prop :=
  ∀ (s : State) (src : Config.IntSource), s.mem.wf = true →
    s.sampleInputs.inputs.resetRequest ≠ some 0 → Undisturbed s.sampleInputs 9 →
    s.sampleInputs.recognised = some src →
    s.isRam s.sp = true → s.isRam (s.sp - 1#16) = true → s.isRam (s.sp - 2#16) = true →
    s.isRam (s.sp - 3#16) = true → s.isRam (s.sp - 4#16) = true →
    s.firstMarked (s.sampleInputs.takeInterrupt src).bus = none →
    ∃ t, step s = .next t ∧ Registers t s.a s.x s.h (s.sp - 5#16) ∧
      t.ccr = { s.ccr with i := true } ∧ t.run = .running ∧
      t.mem.read s.sp.toNat = loByte s.pc ∧ t.mem.read (s.sp - 1#16).toNat = hiByte s.pc ∧
      t.mem.read (s.sp - 2#16).toNat = s.x ∧ t.mem.read (s.sp - 3#16).toNat = s.a ∧
      t.mem.read (s.sp - 4#16).toNat = s.ccr.toByte ∧
      (∀ c : Word, c ∉ [s.sp, s.sp - 1#16, s.sp - 2#16, s.sp - 3#16, s.sp - 4#16] →
        t.mem.read c.toNat = s.mem.read c.toNat) ∧
      EntrySequence s t s.pc src.vector t.bus ∧
      t.inputs = s.sampleInputs.inputs ∧ t.inhibit = s.inhibit ∧ t.params = s.params ∧
      t.schedule = s.sampleInputs.schedule ∧ t.io = devicesSeen s t.bus ∧
      (s.run = .running → t.cycles = s.cycles + 9)

/-- A waiting or stopped CPU that nothing wakes executes nothing and makes no bus cycle: registers, memory,
instruction buffer, run state, devices, parameters and cycle count stay, and the step only takes the inputs
of the boundary: the next entry of the schedule, or the levels as they stand (R31, R32, R273, R274; log
entry 7). -/
def Obligations.HaltedMachineStays : Prop :=
  ∀ s : State, s.run ≠ .running → s.sampleInputs.inputs.resetRequest ≠ some 0 →
    s.sampleInputs.recognised = none →
    ∃ t, step s = .next t ∧ Registers t s.a s.x s.h s.sp ∧ t.ccr = s.ccr ∧ t.pc = s.pc ∧ t.ibuf = s.ibuf ∧
      t.mem = s.mem ∧ t.run = s.run ∧ t.inhibit = s.inhibit ∧ t.io = s.io ∧ t.params = s.params ∧
      t.cycles = s.cycles ∧ t.bus = [] ∧
      (s.schedule = [] → t.inputs = s.inputs ∧ t.schedule = []) ∧
      (∀ e es, s.schedule = e :: es → t.inputs = e ∧ t.schedule = es)

/-- `CliDelay`: the boundary after an instruction is protected exactly if the parameter asks for it and
the instruction is CLI, TAP or RTI and cleared I; at a protected boundary no interrupt is recognised,
whatever is requested (R231, R263, R302; the three instructions are log entry 9's reading). -/
def Obligations.ClearedMaskDelay : Prop :=
  ∀ (i : Instr) (s t : State), exec i (s.setInhibit false) = .next t →
    (t.inhibit = true ↔ s.params.cliDelay = true ∧ s.ccr.i = true ∧ t.ccr.i = false ∧
      (i = .cli ∨ i = .tap ∨ i = .rti)) ∧
    (t.inhibit = true → ∀ e : Inputs, (t.setInputs e).recognised = none)

/-! ## Exceptions and returns -/

/-- SWI: the entry sequence with the address after it and the vector `VecSWI`, whatever I is (R252, R266,
R267, R275). -/
def Obligations.SoftwareInterrupt : Prop :=
  ∀ s : State, s.mem.wf = true →
    s.isRam s.sp = true → s.isRam (s.sp - 1#16) = true → s.isRam (s.sp - 2#16) = true →
    s.isRam (s.sp - 3#16) = true → s.isRam (s.sp - 4#16) = true →
    ∃ t, exec .swi s = .next t ∧ Registers t s.a s.x s.h (s.sp - 5#16) ∧
      t.ccr = { s.ccr with i := true } ∧
      t.mem.read s.sp.toNat = loByte (s.pc + 1#16) ∧
      t.mem.read (s.sp - 1#16).toNat = hiByte (s.pc + 1#16) ∧
      t.mem.read (s.sp - 2#16).toNat = s.x ∧ t.mem.read (s.sp - 3#16).toNat = s.a ∧
      t.mem.read (s.sp - 4#16).toNat = s.ccr.toByte ∧
      (∀ c : Word, c ∉ [s.sp, s.sp - 1#16, s.sp - 2#16, s.sp - 3#16, s.sp - 4#16] →
        t.mem.read c.toNat = s.mem.read c.toNat) ∧
      EntrySequence s t (s.pc + 1#16) s.params.vecSwi (cyclesOf s t) ∧ SameSurroundings s t

/-- RTI: CCR, `A`, `X`, PCH and PCL from the five bytes above `SP`, in this order; `H` and memory stay
(R250, R266). -/
def Obligations.ReturnFromInterrupt : Prop :=
  ∀ s : State,
    ∃ (t : State) (surplus b a x hi lo opcode : Byte), exec .rti s = .next t ∧
      cyclesOf s t = [⟨.p, s.pc + 1#16, surplus⟩, ⟨.u, s.sp + 1#16, b⟩, ⟨.u, s.sp + 2#16, a⟩,
        ⟨.u, s.sp + 3#16, x⟩, ⟨.u, s.sp + 4#16, hi⟩, ⟨.u, s.sp + 5#16, lo⟩, ⟨.p, t.pc, opcode⟩] ∧
      Coherent s (cyclesOf s t) ∧ Registers t a x s.h (s.sp + 5#16) ∧ t.ccr = Ccr.ofByte b ∧
      t.pc = wordOf hi lo ∧ t.ibuf = opcode ∧ SameBytes s t ∧
      t.run = s.run ∧ t.inputs = s.inputs ∧ t.schedule = s.schedule ∧ t.params = s.params

/-- RTI undoes the entry sequence: with five bytes of RAM at the stack pointer, the state after entry and
RTI has every register and flag as before it, and `pc` at the return address (R265, R269). -/
def Obligations.ReturnUndoesEntry : Prop :=
  ∀ (s : State) (ret vec : Word), s.mem.wf = true →
    s.isRam s.sp = true → s.isRam (s.sp - 1#16) = true → s.isRam (s.sp - 2#16) = true →
    s.isRam (s.sp - 3#16) = true → s.isRam (s.sp - 4#16) = true →
    ∃ t, exec .rti (s.takeException ret vec) = .next t ∧ Registers t s.a s.x s.h s.sp ∧
      t.ccr = s.ccr ∧ GoesTo (s.takeException ret vec) t ret ∧ SameBytes (s.takeException ret vec) t

/-- RTS undoes JSR and BSR: with two bytes of RAM at the stack pointer, control is back at the instruction
after the call, with every register and flag as before it (R200, R202, R203). -/
def Obligations.ReturnUndoesCall : Prop :=
  ∀ (s u : State) (i : Instr), s.mem.wf = true → s.isRam s.sp = true → s.isRam (s.sp - 1#16) = true →
    WellFormed i → ((∃ m, i = .jsr m) ∨ (∃ rr, i = .bsr rr)) → exec i s = .next u →
    ∃ t, exec .rts u = .next t ∧ Registers t s.a s.x s.h s.sp ∧ t.ccr = s.ccr ∧
      GoesTo u t (s.pc + BitVec.ofNat 16 (encode i).length) ∧ SameBytes u t

/-! ## Flags -/

/-- `add8`: the nine-bit sum, the carry out of bit 3, the signed overflow; and the Boolean forms of C,
half-carry and V (R37; the spec's own general knowledge, log entry 8). -/
def Obligations.AddFlags : Prop :=
  ∀ (a m : Byte) (cin : Bool) (f : Ccr),
    let p := add8 a m cin f
    let sum := a.toNat + m.toNat + cin.toNat
    p.1.toNat = sum % 256 ∧ (p.2.c = true ↔ 256 ≤ sum) ∧
    (p.2.h = true ↔ 15 < a.toNat % 16 + m.toNat % 16 + cin.toNat) ∧
    (p.2.v = true ↔ a.toInt + m.toInt + cin.toNat < -128 ∨ 127 < a.toInt + m.toInt + cin.toNat) ∧
    p.2.n = p.1.getLsbD 7 ∧ (p.2.z = true ↔ p.1 = 0#8) ∧ p.2.i = f.i ∧
    p.2.c = (a.getLsbD 7 && m.getLsbD 7 || m.getLsbD 7 && !p.1.getLsbD 7 ||
      !p.1.getLsbD 7 && a.getLsbD 7) ∧
    p.2.h = (a.getLsbD 3 && m.getLsbD 3 || m.getLsbD 3 && !p.1.getLsbD 3 ||
      !p.1.getLsbD 3 && a.getLsbD 3) ∧
    p.2.v = (a.getLsbD 7 && m.getLsbD 7 && !p.1.getLsbD 7 ||
      !a.getLsbD 7 && !m.getLsbD 7 && p.1.getLsbD 7)

/-- `sub8` and `sub16`: the difference, the borrow, the signed overflow, and the Boolean forms of C and V
of `sub8`; half-carry and I are not touched (R38, R39; the spec's own general knowledge, log entry 8). -/
def Obligations.SubtractFlags : Prop :=
  (∀ (a m : Byte) (bin : Bool) (f : Ccr),
    let p := sub8 a m bin f
    p.1.toNat = (a.toNat + 512 - m.toNat - bin.toNat) % 256 ∧
    (p.2.c = true ↔ a.toNat < m.toNat + bin.toNat) ∧
    (p.2.v = true ↔ a.toInt - m.toInt - bin.toNat < -128 ∨ 127 < a.toInt - m.toInt - bin.toNat) ∧
    p.2.n = p.1.getLsbD 7 ∧ (p.2.z = true ↔ p.1 = 0#8) ∧ p.2.h = f.h ∧ p.2.i = f.i ∧
    p.2.c = (!a.getLsbD 7 && m.getLsbD 7 || m.getLsbD 7 && p.1.getLsbD 7 ||
      p.1.getLsbD 7 && !a.getLsbD 7) ∧
    p.2.v = (a.getLsbD 7 && !m.getLsbD 7 && !p.1.getLsbD 7 ||
      !a.getLsbD 7 && m.getLsbD 7 && p.1.getLsbD 7)) ∧
  (∀ (a m : Word) (f : Ccr),
    let p := sub16 a m f
    p.1 = a - m ∧ (p.2.c = true ↔ a.toNat < m.toNat) ∧
    (p.2.v = true ↔ a.toInt - m.toInt < -32768 ∨ 32767 < a.toInt - m.toInt) ∧
    p.2.v = (a.getLsbD 15 != m.getLsbD 15 && p.1.getLsbD 15 != a.getLsbD 15) ∧
    p.2.n = p.1.getLsbD 15 ∧ (p.2.z = true ↔ p.1 = 0#16) ∧ p.2.h = f.h ∧ p.2.i = f.i)

/-- The nine read-modify-write operations: the five shifts and rotates bit by bit, with V = N xor C; COM,
NEG, DEC and INC; what each leaves alone (R40, R144, R145, R146, R149). -/
def Obligations.ModifyOperations : Prop :=
  ∀ (v : Byte) (f : Ccr),
    (∀ (p : Byte × Ccr) (out fill : Bool) (left : Bool),
      (p, left, out, fill) ∈ [(lsl8 v f, true, v.getLsbD 7, false), (rol8 v f, true, v.getLsbD 7, f.c),
        (lsr8 v f, false, v.getLsbD 0, false), (ror8 v f, false, v.getLsbD 0, f.c),
        (asr8 v f, false, v.getLsbD 0, v.getLsbD 7)] →
      (∀ k, k < 8 → p.1.getLsbD k =
        if left then (if k = 0 then fill else v.getLsbD (k - 1))
        else if k = 7 then fill else v.getLsbD (k + 1)) ∧
      p.2.c = out ∧ p.2.n = p.1.getLsbD 7 ∧ (p.2.z = true ↔ p.1 = 0#8) ∧
      p.2.v = (p.1.getLsbD 7 ^^ out) ∧ p.2.h = f.h ∧ p.2.i = f.i) ∧
    ((com8 v f).1.toNat = 255 - v.toNat ∧
      (com8 v f).2 = ⟨false, f.h, f.i, !v.getLsbD 7, decide (v = 0xFF#8), true⟩) ∧
    ((neg8 v f).1.toNat = (256 - v.toNat) % 256 ∧
      (neg8 v f).2 = ⟨decide (v = 0x80#8), f.h, f.i, (neg8 v f).1.getLsbD 7, decide (v = 0#8),
        decide (v ≠ 0#8)⟩) ∧
    ((dec8 v f).1.toNat = (v.toNat + 255) % 256 ∧
      (dec8 v f).2 = ⟨decide (v = 0x80#8), f.h, f.i, (dec8 v f).1.getLsbD 7, decide (v = 1#8), f.c⟩) ∧
    ((inc8 v f).1.toNat = (v.toNat + 1) % 256 ∧
      (inc8 v f).2 = ⟨decide (v = 0x7F#8), f.h, f.i, (inc8 v f).1.getLsbD 7, decide (v = 0xFF#8), f.c⟩)

/-- The CCR as a byte is `V:1:1:H:I:N:Z:C`, bits 6 and 5 always 1; TPA delivers it, interrupt entry and SWI
stack it at `SP - 4`; TAP and RTI load the six flags from a byte and ignore its bits 6 and 5 (R27, R29). -/
def Obligations.CcrAsByte : Prop :=
  (∀ f : Ccr, [7, 6, 5, 4, 3, 2, 1, 0].map f.toByte.getLsbD = [f.v, true, true, f.h, f.i, f.n, f.z, f.c]) ∧
  (∀ b : Byte, Ccr.ofByte b =
    ⟨b.getLsbD 7, b.getLsbD 4, b.getLsbD 3, b.getLsbD 2, b.getLsbD 1, b.getLsbD 0⟩) ∧
  (∀ s : State, ∃ t, exec .tpa s = .next t ∧ t.a = s.ccr.toByte) ∧
  (∀ s : State, ∃ t, exec .tap s = .next t ∧ t.ccr = Ccr.ofByte s.a) ∧
  (∀ s : State, ∃ t, exec .rti s = .next t ∧ t.ccr = Ccr.ofByte ((s.fetch 1).read (s.sp + 1#16))) ∧
  (∀ (s : State) (ret vec : Word), s.mem.wf = true → s.isRam (s.sp - 4#16) = true →
    (s.takeException ret vec).read (s.sp - 4#16) = s.ccr.toByte) ∧
  (∀ s : State, exec .swi s = .next (s.takeException (s.pc + 1#16) s.params.vecSwi)) ∧
  (∀ (s : State) (src : Config.IntSource),
    (s.takeInterrupt src).mem = (s.takeException s.pc src.vector).mem)

/-- Which branch to use after a comparison: the conditions of the unsigned and the signed branches, on the
flags that comparing `R` with `M` leaves, decide the order of the two values, 8-bit and 16-bit, whatever form
the operand `M` has (R195; SBC computes `R - M` when there is no borrow in). -/
def Obligations.BranchAfterCompare : Prop :=
  ∀ (s : State) (rr : Byte) (t : State) (i : Instr) (ru mu : Nat) (rs ms : Int),
    ((∃ src m, m = sourceValue src s ∧
        (((i = .cmp src ∨ i = .sub src ∨ (i = .sbc src ∧ s.ccr.c = false)) ∧ ru = s.a.toNat ∧
            rs = s.a.toInt) ∨
          (i = .cpx src ∧ ru = s.x.toNat ∧ rs = s.x.toInt)) ∧ mu = m.toNat ∧ ms = m.toInt) ∨
     (∃ src m, m = source16Value src s ∧
        i = .cphx src ∧ ru = s.hx.toNat ∧ rs = s.hx.toInt ∧ mu = m.toNat ∧ ms = m.toInt)) →
    exec i s = .next t →
    ∀ (j : Byte → Instr) (cond : Prop),
      (j, cond) ∈ ([(.bhi, mu < ru), (.bcc, mu ≤ ru), (.bls, ru ≤ mu), (.bcs, ru < mu), (.beq, ru = mu),
        (.bne, ru ≠ mu), (.bgt, ms < rs), (.bge, ms ≤ rs), (.ble, rs ≤ ms), (.blt, rs < ms)] :
        List ((Byte → Instr) × Prop)) →
      ∃ u, exec (j rr) t = .next u ∧ (cond → u.pc = t.pc + 2#16 + rr.signExtend 16) ∧
        (¬ cond → u.pc = t.pc + 2#16)

/-! ## Register/memory instructions -/

/-- ADD and ADC: result, flags, frame (R120, R121, R122). -/
def Obligations.AddInstructions : Prop :=
  ∀ (s : State) (src : Source) (i : Instr) (cin : Bool),
    (i = .add src ∧ cin = false) ∨ (i = .adc src ∧ cin = s.ccr.c) →
    let m := sourceValue src s
    let sum := s.a.toNat + m.toNat + cin.toNat
    ∃ t, exec i s = .next t ∧ Registers t (BitVec.ofNat 8 sum) s.x s.h s.sp ∧
      t.ccr = ⟨t.a.msb != s.a.msb && s.a.msb == m.msb,
        decide (15 < s.a.toNat % 16 + m.toNat % 16 + cin.toNat), s.ccr.i, t.a.msb, decide (t.a = 0#8),
        decide (255 < sum)⟩ ∧
      GoesTo s t (s.pc + BitVec.ofNat 16 (sourceLength src)) ∧ SameBytes s t ∧ SameSurroundings s t

/-- SUB and SBC: result, flags, frame; the half-carry flag stays (R120, R131, R134). -/
def Obligations.SubtractInstructions : Prop :=
  ∀ (s : State) (src : Source) (i : Instr) (bin : Bool),
    (i = .sub src ∧ bin = false) ∨ (i = .sbc src ∧ bin = s.ccr.c) →
    let m := sourceValue src s
    ∃ t, exec i s = .next t ∧
      Registers t (BitVec.ofNat 8 (s.a.toNat + 512 - m.toNat - bin.toNat)) s.x s.h s.sp ∧
      t.ccr = ⟨t.a.msb != s.a.msb && s.a.msb != m.msb, s.ccr.h, s.ccr.i, t.a.msb, decide (t.a = 0#8),
        decide (s.a.toNat < m.toNat + bin.toNat)⟩ ∧
      GoesTo s t (s.pc + BitVec.ofNat 16 (sourceLength src)) ∧ SameBytes s t ∧ SameSurroundings s t

/-- AND, ORA, EOR, LDA and LDX: the result, V = 0, N and Z of it, frame (R120, R123, R127 to R130). -/
def Obligations.LogicAndLoadInstructions : Prop :=
  ∀ (s : State) (src : Source) (i : Instr) (r a x : Byte),
    let m := sourceValue src s
    (i = .and src ∧ r = s.a &&& m ∧ a = r ∧ x = s.x) ∨ (i = .ora src ∧ r = s.a ||| m ∧ a = r ∧ x = s.x) ∨
      (i = .eor src ∧ r = s.a ^^^ m ∧ a = r ∧ x = s.x) ∨ (i = .lda src ∧ r = m ∧ a = r ∧ x = s.x) ∨
      (i = .ldx src ∧ r = m ∧ a = s.a ∧ x = r) →
    ∃ t, exec i s = .next t ∧ Registers t a x s.h s.sp ∧
      t.ccr = ⟨false, s.ccr.h, s.ccr.i, r.msb, decide (r = 0#8), s.ccr.c⟩ ∧
      GoesTo s t (s.pc + BitVec.ofNat 16 (sourceLength src)) ∧ SameBytes s t ∧ SameSurroundings s t

/-- CMP, CPX and BIT write flags only: those of `A - M`, `X - M` and `A & M` (R124, R125, R126). -/
def Obligations.CompareInstructions : Prop :=
  ∀ (s : State) (src : Source) (i : Instr) (f : Ccr),
    let m := sourceValue src s
    let compared (r : Byte) : Ccr := ⟨(r - m).msb != r.msb && r.msb != m.msb, s.ccr.h, s.ccr.i, (r - m).msb,
      decide (r = m), decide (r.toNat < m.toNat)⟩
    (i = .cmp src ∧ f = compared s.a) ∨ (i = .cpx src ∧ f = compared s.x) ∨
      (i = .bit src ∧
        f = ⟨false, s.ccr.h, s.ccr.i, (s.a &&& m).msb, decide (s.a &&& m = 0#8), s.ccr.c⟩) →
    ∃ t, exec i s = .next t ∧ Registers t s.a s.x s.h s.sp ∧ t.ccr = f ∧
      GoesTo s t (s.pc + BitVec.ofNat 16 (sourceLength src)) ∧ SameBytes s t ∧ SameSurroundings s t

/-- STA and STX: one byte stored at the effective address, flags of it, nothing else (R120, R132, R133). -/
def Obligations.StoreInstructions : Prop :=
  ∀ (s : State) (m : MemMode) (i : Instr) (v : Byte), s.mem.wf = true →
    (i = .sta m ∧ v = s.a) ∨ (i = .stx m ∧ v = s.x) →
    ∃ t, exec i s = .next t ∧ Registers t s.a s.x s.h s.sp ∧
      t.ccr = ⟨false, s.ccr.h, s.ccr.i, v.msb, decide (v = 0#8), s.ccr.c⟩ ∧
      StoredAt s t (effectiveAddress m s) v ∧ GoesTo s t (s.pc + BitVec.ofNat 16 (modeLength m)) ∧
      SameSurroundings s t

/-! ## Read-modify-write and bit manipulation -/

/-- The memory forms of ASR, COM, DEC, INC, LSL, LSR, NEG, ROL and ROR: the byte at the effective address
becomes the operation's result, the flags are the operation's (R140). -/
def Obligations.ModifyMemoryInstructions : Prop :=
  ∀ (s : State) (m : MemMode), s.mem.wf = true →
    ∀ row ∈ modifyTable, ∃ t, exec (row.1 m) s = .next t ∧ Registers t s.a s.x s.h s.sp ∧
      t.ccr = (row.2.2.2 (memoryValue m s) s.ccr).2 ∧
      StoredAt s t (effectiveAddress m s) (row.2.2.2 (memoryValue m s) s.ccr).1 ∧
      GoesTo s t (s.pc + BitVec.ofNat 16 (modeLength m)) ∧ SameSurroundings s t

/-- The same nine operations on `A` and on `X`: no memory, and `H` stays (R140). -/
def Obligations.ModifyRegisterInstructions : Prop :=
  ∀ s : State, ∀ row ∈ modifyTable,
    (∃ t, exec row.2.1 s = .next t ∧ Registers t (row.2.2.2 s.a s.ccr).1 s.x s.h s.sp ∧
      t.ccr = (row.2.2.2 s.a s.ccr).2 ∧ GoesTo s t (s.pc + 1#16) ∧ SameBytes s t ∧
      SameSurroundings s t) ∧
    (∃ t, exec row.2.2.1 s = .next t ∧ Registers t s.a (row.2.2.2 s.x s.ccr).1 s.h s.sp ∧
      t.ccr = (row.2.2.2 s.x s.ccr).2 ∧ GoesTo s t (s.pc + 1#16) ∧ SameBytes s t ∧
      SameSurroundings s t)

/-- CLR stores zero; CLRA, CLRX and CLRH clear the register; V = 0, N = 0, Z = 1. TST, TSTA and TSTX
write V = 0, N and Z of the byte and nothing else (R143, R152). -/
def Obligations.ClearAndTestInstructions : Prop :=
  ∀ (s : State) (m : MemMode),
    let cleared : Ccr := ⟨false, s.ccr.h, s.ccr.i, false, true, s.ccr.c⟩
    let tested (v : Byte) : Ccr := ⟨false, s.ccr.h, s.ccr.i, v.msb, decide (v = 0#8), s.ccr.c⟩
    (s.mem.wf = true → ∃ t, exec (.clr m) s = .next t ∧ Registers t s.a s.x s.h s.sp ∧ t.ccr = cleared ∧
      StoredAt s t (effectiveAddress m s) 0#8 ∧ GoesTo s t (s.pc + BitVec.ofNat 16 (modeLength m)) ∧
      SameSurroundings s t) ∧
    (∀ (i : Instr) (a x h : Byte) (f : Ccr) (len : Nat),
      (i, a, x, h, f, len) ∈ [(Instr.clra, 0#8, s.x, s.h, cleared, 1), (.clrx, s.a, 0#8, s.h, cleared, 1),
        (.clrh, s.a, s.x, 0#8, cleared, 1), (.tsta, s.a, s.x, s.h, tested s.a, 1),
        (.tstx, s.a, s.x, s.h, tested s.x, 1),
        (.tst m, s.a, s.x, s.h, tested (memoryValue m s), modeLength m)] →
      ∃ t, exec i s = .next t ∧ Registers t a x h s.sp ∧ t.ccr = f ∧
        GoesTo s t (s.pc + BitVec.ofNat 16 len) ∧ SameBytes s t ∧ SameSurroundings s t)

/-- BSET and BCLR: bit `n` of the byte at `$00:dd` is set or cleared and its other bits are written back
as read; no register and no flag changes (R160, R163). -/
def Obligations.BitSetAndClear : Prop :=
  ∀ (s : State) (n : Fin 8) (dd : Byte) (i : Instr) (b : Bool), s.mem.wf = true →
    (i = .bset n dd ∧ b = true) ∨ (i = .bclr n dd ∧ b = false) →
    ∃ t v, exec i s = .next t ∧
      (∀ k, k < 8 → v.getLsbD k = if k = n.val then b else ((s.fetch 1).read (dd.setWidth 16)).getLsbD k) ∧
      StoredAt s t (dd.setWidth 16) v ∧ Registers t s.a s.x s.h s.sp ∧ t.ccr = s.ccr ∧
      GoesTo s t (s.pc + 2#16) ∧ SameSurroundings s t

/-- BRSET and BRCLR: C takes the tested bit in both, and the branch is taken as the bit is 1 or 0 (R161,
R162). -/
def Obligations.BranchOnBit : Prop :=
  ∀ (s : State) (n : Fin 8) (dd rr : Byte) (i : Instr) (b : Bool),
    (i = .brset n dd rr ∧ b = true) ∨ (i = .brclr n dd rr ∧ b = false) →
    let bit := ((s.fetch 1).read (dd.setWidth 16)).getLsbD n.val
    ∃ t, exec i s = .next t ∧ Registers t s.a s.x s.h s.sp ∧ t.ccr = { s.ccr with c := bit } ∧
      GoesTo s t (if bit = b then s.pc + 3#16 + rr.signExtend 16 else s.pc + 3#16) ∧ SameBytes s t ∧
      SameSurroundings s t

/-! ## Branches, jumps, calls -/

/-- The twenty two-byte branches: taken to `pc + 2 + rr`, else on to `pc + 2`; no register, flag or byte
changes (R170 to R192). -/
def Obligations.SimpleBranches : Prop :=
  ∀ (s : State) (rr : Byte), ∀ row ∈ branchTable s,
    ∃ t, exec (row.1 rr) s = .next t ∧ (row.2 → GoesTo s t (s.pc + 2#16 + rr.signExtend 16)) ∧
      (¬ row.2 → GoesTo s t (s.pc + 2#16)) ∧ Registers t s.a s.x s.h s.sp ∧ t.ccr = s.ccr ∧
      SameBytes s t ∧ SameSurroundings s t

/-- CBEQ, CBEQA and CBEQX: branch if equal, no flag; in the IX+ and IX1+ forms `H:X` is incremented
whether or not the branch is taken (R93, R94, R193). -/
def Obligations.CompareAndBranch : Prop :=
  ∀ (s : State) (rr : Byte) (i : Instr) (equal : Prop) (hx : Word) (len : Nat),
    ((∃ dd, i = .cbeq (.dir dd) rr ∧ (equal ↔ s.a = (s.fetch 2).read (dd.setWidth 16)) ∧ hx = s.hx ∧
       len = 3) ∨
     (∃ ff, i = .cbeq (.ix1Plus ff) rr ∧ (equal ↔ s.a = (s.fetch 2).read (s.hx + ff.setWidth 16)) ∧
       hx = s.hx + 1#16 ∧ len = 3) ∨
     (i = .cbeq .ixPlus rr ∧ (equal ↔ s.a = (s.fetch 1).read s.hx) ∧ hx = s.hx + 1#16 ∧ len = 2) ∨
     (∃ ff, i = .cbeq (.sp1 ff) rr ∧ (equal ↔ s.a = (s.fetch 3).read (s.sp + ff.setWidth 16)) ∧ hx = s.hx ∧
       len = 4) ∨
     (∃ ii, i = .cbeqa ii rr ∧ (equal ↔ s.a = ii) ∧ hx = s.hx ∧ len = 3) ∨
     (∃ ii, i = .cbeqx ii rr ∧ (equal ↔ s.x = ii) ∧ hx = s.hx ∧ len = 3)) →
    ∃ t, exec i s = .next t ∧
      (equal → GoesTo s t (s.pc + BitVec.ofNat 16 len + rr.signExtend 16)) ∧
      (¬ equal → GoesTo s t (s.pc + BitVec.ofNat 16 len)) ∧
      t.a = s.a ∧ t.hx = hx ∧ t.sp = s.sp ∧ t.ccr = s.ccr ∧ SameBytes s t ∧ SameSurroundings s t

/-- DBNZ, DBNZA and DBNZX: decrement, then branch if the result is not zero; no flag, and `H` stays
(R194). -/
def Obligations.DecrementAndBranch : Prop :=
  ∀ (s : State) (rr : Byte),
    let next (t : State) (len : Nat) (r : Byte) : Prop :=
      GoesTo s t (if r = 0#8 then s.pc + BitVec.ofNat 16 len
        else s.pc + BitVec.ofNat 16 len + rr.signExtend 16) ∧ t.ccr = s.ccr ∧ SameSurroundings s t
    (∃ t, exec (.dbnza rr) s = .next t ∧ Registers t (s.a - 1#8) s.x s.h s.sp ∧ next t 2 (s.a - 1#8) ∧
      SameBytes s t) ∧
    (∃ t, exec (.dbnzx rr) s = .next t ∧ Registers t s.a (s.x - 1#8) s.h s.sp ∧ next t 2 (s.x - 1#8) ∧
      SameBytes s t) ∧
    (s.mem.wf = true → ∀ m : MemMode,
      let r := (s.fetch (modeLength m)).read (effectiveAddress m s) - 1#8
      ∃ t, exec (.dbnz m rr) s = .next t ∧ Registers t s.a s.x s.h s.sp ∧ next t (modeLength m + 1) r ∧
        StoredAt s t (effectiveAddress m s) r)

/-- JMP goes to the effective address. JSR and BSR push the address of the next instruction, low byte first,
and go to the effective address and to the relative target (R200, R201, R202). -/
def Obligations.JumpsAndCalls : Prop :=
  (∀ (s : State) (m : MemMode), ∃ t, exec (.jmp m) s = .next t ∧ GoesTo s t (effectiveAddress m s) ∧
    Registers t s.a s.x s.h s.sp ∧ t.ccr = s.ccr ∧ SameBytes s t ∧ SameSurroundings s t) ∧
  (∀ (s : State) (i : Instr) (ret target : Word), s.mem.wf = true →
    s.isRam s.sp = true → s.isRam (s.sp - 1#16) = true →
    (∃ m, i = .jsr m ∧ ret = s.pc + BitVec.ofNat 16 (modeLength m) ∧ target = effectiveAddress m s) ∨
      (∃ rr, i = .bsr rr ∧ ret = s.pc + 2#16 ∧ target = s.pc + 2#16 + rr.signExtend 16) →
    ∃ t, exec i s = .next t ∧ GoesTo s t target ∧
      Registers t s.a s.x s.h (s.sp - 2#16) ∧ t.ccr = s.ccr ∧
      t.mem.read s.sp.toNat = loByte ret ∧ t.mem.read (s.sp - 1#16).toNat = hiByte ret ∧
      (∀ c : Word, c ≠ s.sp → c ≠ s.sp - 1#16 → t.mem.read c.toNat = s.mem.read c.toNat) ∧
      SameSurroundings s t)

/-- RTS: `pc` from the two bytes above `SP`, high byte first (R203). -/
def Obligations.ReturnFromSubroutine : Prop :=
  ∀ s : State, ∃ (t : State) (surplus hi lo opcode : Byte), exec .rts s = .next t ∧
    cyclesOf s t = [⟨.p, s.pc + 1#16, surplus⟩, ⟨.u, s.sp + 1#16, hi⟩, ⟨.u, s.sp + 2#16, lo⟩,
      ⟨.p, t.pc, opcode⟩] ∧
    Coherent s (cyclesOf s t) ∧ t.pc = wordOf hi lo ∧ t.ibuf = opcode ∧
    Registers t s.a s.x s.h (s.sp + 2#16) ∧ t.ccr = s.ccr ∧ SameBytes s t ∧ SameSurroundings s t

/-! ## Index register, stack pointer, moves -/

/-- AIS, AIX, TSX, TXS and RSP: 16-bit arithmetic modulo 2^16 on `SP` and `H:X`, no flag (R210, R211, R221,
R223, R224). -/
def Obligations.IndexAndStackPointer : Prop :=
  ∀ (s : State) (ii : Byte) (i : Instr) (hx sp : Word) (len : Nat),
    (i, hx, sp, len) ∈ [(Instr.ais ii, s.hx, s.sp + ii.signExtend 16, 2),
      (.aix ii, s.hx + ii.signExtend 16, s.sp, 2), (.tsx, s.sp + 1#16, s.sp, 1),
      (.txs, s.hx, s.hx - 1#16, 1), (.rsp, s.hx, s.sp ||| 0x00FF#16, 1)] →
    ∃ t, exec i s = .next t ∧ t.a = s.a ∧ t.hx = hx ∧ t.sp = sp ∧ t.ccr = s.ccr ∧
      GoesTo s t (s.pc + BitVec.ofNat 16 len) ∧ SameBytes s t ∧ SameSurroundings s t

/-- LDHX, CPHX and STHX: the 16-bit operand with its high byte first, `$00:dd` and the next address even
for `dd` = `$FF`; V, N and Z (and C for CPHX) of the 16-bit value (R55, R212, R213, R222). -/
def Obligations.IndexRegisterMemory : Prop :=
  ∀ (s : State) (dd : Byte),
    let lo := dd.setWidth 16 + 1#16
    let valued (w : Word) : Ccr := ⟨false, s.ccr.h, s.ccr.i, w.msb, decide (w = 0#16), s.ccr.c⟩
    (∀ (src : Source16) (m : Word) (len : Nat),
      (src = .imm m ∧ len = 3) ∨
        (src = .dir dd ∧ m = wordOf ((s.fetch 1).read (dd.setWidth 16))
          (((s.fetch 1).load .r (dd.setWidth 16)).read lo) ∧ len = 2) →
      (∃ t, exec (.ldhx src) s = .next t ∧ t.a = s.a ∧ t.hx = m ∧ t.sp = s.sp ∧ t.ccr = valued m ∧
        GoesTo s t (s.pc + BitVec.ofNat 16 len) ∧ SameBytes s t ∧ SameSurroundings s t) ∧
      (∃ t, exec (.cphx src) s = .next t ∧ Registers t s.a s.x s.h s.sp ∧
        t.ccr = ⟨(s.hx - m).msb != s.hx.msb && s.hx.msb != m.msb, s.ccr.h, s.ccr.i, (s.hx - m).msb,
          decide (s.hx = m), decide (s.hx.toNat < m.toNat)⟩ ∧
        GoesTo s t (s.pc + BitVec.ofNat 16 len) ∧ SameBytes s t ∧ SameSurroundings s t)) ∧
    (s.mem.wf = true → s.isRam (dd.setWidth 16) = true → s.isRam lo = true →
      ∃ t, exec (.sthx dd) s = .next t ∧ Registers t s.a s.x s.h s.sp ∧ t.ccr = valued s.hx ∧
        t.mem.read (dd.setWidth 16).toNat = s.h ∧ t.mem.read lo.toNat = s.x ∧
        (∀ c : Word, c ≠ dd.setWidth 16 → c ≠ lo → t.mem.read c.toNat = s.mem.read c.toNat) ∧
        GoesTo s t (s.pc + 2#16) ∧ SameSurroundings s t)

/-- MOV in its four forms: the byte from the source lands at the destination, V = 0, N and Z of it, and
`H:X` is incremented in the two `X+` forms (R93, R214). -/
def Obligations.MoveInstruction : Prop :=
  ∀ (s : State) (f : MoveForm) (v : Byte) (dst hx : Word) (len : Nat), s.mem.wf = true →
    ((∃ p q, f = .dirDir p q ∧ v = (s.fetch 1).read (p.setWidth 16) ∧ dst = q.setWidth 16 ∧ hx = s.hx ∧
       len = 3) ∨
     (∃ p, f = .dirIxPlus p ∧ v = (s.fetch 1).read (p.setWidth 16) ∧ dst = s.hx ∧ hx = s.hx + 1#16 ∧
       len = 2) ∨
     (∃ ii q, f = .immDir ii q ∧ v = ii ∧ dst = q.setWidth 16 ∧ hx = s.hx ∧ len = 3) ∨
     (∃ q, f = .ixPlusDir q ∧ v = (s.fetch 1).read s.hx ∧ dst = q.setWidth 16 ∧ hx = s.hx + 1#16 ∧
       len = 2)) →
    ∃ t, exec (.mov f) s = .next t ∧ StoredAt s t dst v ∧ t.a = s.a ∧ t.hx = hx ∧ t.sp = s.sp ∧
      t.ccr = ⟨false, s.ccr.h, s.ccr.i, v.msb, decide (v = 0#8), s.ccr.c⟩ ∧
      GoesTo s t (s.pc + BitVec.ofNat 16 len) ∧ SameSurroundings s t

/-- A push stores first and decrements after; a pull increments first and reads after, and changes no byte.
PSHA, PSHH, PSHX and PULA, PULH, PULX do just that with their register, and write no flag (R58, R59, R215 to
R220). -/
def Obligations.PushAndPull : Prop :=
  ∀ s : State,
    (s.mem.wf = true → ∀ v : Byte, StoredAt s (s.push v) s.sp v ∧ (s.push v).sp = s.sp - 1#16 ∧
      (s.push v).bus = s.bus ++ [⟨.s, s.sp, v⟩]) ∧
    (s.pull.1 = s.read (s.sp + 1#16) ∧ s.pull.2.sp = s.sp + 1#16 ∧ SameBytes s s.pull.2 ∧
      s.pull.2.bus = s.bus ++ [⟨.u, s.sp + 1#16, s.pull.1⟩]) ∧
    (s.mem.wf = true → ∀ (i : Instr) (v : Byte),
      (i, v) ∈ [(Instr.psha, s.a), (.pshh, s.h), (.pshx, s.x)] →
      ∃ t, exec i s = .next t ∧ StoredAt s t s.sp v ∧ Registers t s.a s.x s.h (s.sp - 1#16) ∧
        t.ccr = s.ccr ∧ GoesTo s t (s.pc + 1#16) ∧ SameSurroundings s t) ∧
    (let v := (s.advance 1).read (s.sp + 1#16)
     ∀ (i : Instr) (a x h : Byte),
      (i, a, x, h) ∈ [(Instr.pula, v, s.x, s.h), (.pulh, s.a, s.x, v), (.pulx, s.a, v, s.h)] →
      ∃ t, exec i s = .next t ∧ Registers t a x h (s.sp + 1#16) ∧ t.ccr = s.ccr ∧
        GoesTo s t (s.pc + 1#16) ∧ SameBytes s t ∧ SameSurroundings s t)

/-! ## Inherent and system instructions -/

/-- CLC, SEC, SEI, NOP, TAX and TXA, whole: object code, cycle code, effect (R230, R235, R237, R238, R240,
R242). -/
def Obligations.FlagAndTransferInstructions : Prop :=
  ∀ (s : State) (i : Instr) (op : Byte) (code : List BusCycle) (a x : Byte) (f : Ccr),
    (i, op, code, a, x, f) ∈ [
      (Instr.clc, 0x98#8, [.p], s.a, s.x, { s.ccr with c := false }),
      (.sec, 0x99#8, [.p], s.a, s.x, { s.ccr with c := true }),
      (.sei, 0x9B#8, [.p, .d], s.a, s.x, { s.ccr with i := true }),
      (.nop, 0x9D#8, [.p], s.a, s.x, s.ccr),
      (.tax, 0x97#8, [.p], s.a, s.a, s.ccr),
      (.txa, 0x9F#8, [.p], s.x, s.x, s.ccr)] →
    encode i = [op] ∧ cycleCode i = code ∧
    ∃ t, exec i s = .next t ∧ Registers t a x s.h s.sp ∧ t.ccr = f ∧ GoesTo s t (s.pc + 1#16) ∧
      SameBytes s t ∧ SameSurroundings s t

/-- CLI, TAP and TPA: I cleared; the flags from `A`; `A` from the flags. CLI and TAP protect the next
boundary under `CliDelay` if they cleared I (R231, R239, R241; log entry 9). -/
def Obligations.MaskAndCcrInstructions : Prop :=
  ∀ (s : State) (i : Instr) (a : Byte) (f : Ccr) (inh : Bool),
    (i, a, f, inh) ∈ [
      (Instr.cli, s.a, { s.ccr with i := false }, s.params.cliDelay && s.ccr.i),
      (.tap, s.a, ⟨s.a.getLsbD 7, s.a.getLsbD 4, s.a.getLsbD 3, s.a.getLsbD 2, s.a.getLsbD 1, s.a.getLsbD 0⟩,
        s.params.cliDelay && s.ccr.i && !s.a.getLsbD 3),
      (.tpa, s.ccr.toByte, s.ccr, s.inhibit)] →
    ∃ t, exec i s = .next t ∧ Registers t a s.x s.h s.sp ∧ t.ccr = f ∧ t.inhibit = inh ∧
      GoesTo s t (s.pc + 1#16) ∧ SameBytes s t ∧ t.run = s.run ∧ t.inputs = s.inputs ∧
      t.schedule = s.schedule ∧ t.params = s.params

/-- MUL: `X:A` is the product, half-carry and C are cleared, N, Z and V stay. NSA: the nibbles of `A`
change places (R234, R236). -/
def Obligations.MultiplyAndNibbleSwap : Prop :=
  ∀ s : State,
    (∃ t, exec .mul s = .next t ∧ t.x.toNat * 256 + t.a.toNat = s.x.toNat * s.a.toNat ∧ t.h = s.h ∧
      t.sp = s.sp ∧ t.ccr = { s.ccr with h := false, c := false } ∧ GoesTo s t (s.pc + 1#16) ∧
      SameBytes s t ∧ SameSurroundings s t) ∧
    (∃ t, exec .nsa s = .next t ∧ t.a.toNat = s.a.toNat % 16 * 16 + s.a.toNat / 16 ∧ t.x = s.x ∧
      t.h = s.h ∧ t.sp = s.sp ∧ t.ccr = s.ccr ∧ GoesTo s t (s.pc + 1#16) ∧ SameBytes s t ∧
      SameSurroundings s t)

/-- DIV: where `H` is below `X` the quotient is in `A`, the remainder in `H`, C = 0 and Z tells a zero
quotient; else C = 1, and `A`, `H` and Z are open. `X` and the other flags stay in both cases (R233). -/
def Obligations.DivideInstruction : Prop :=
  ∀ s : State, ∃ t, exec .div s = .next t ∧
    (s.h.toNat < s.x.toNat →
      s.h.toNat * 256 + s.a.toNat = t.a.toNat * s.x.toNat + t.h.toNat ∧ t.h.toNat < s.x.toNat ∧
      t.ccr.c = false ∧ (t.ccr.z = true ↔ t.a = 0#8)) ∧
    (s.x.toNat ≤ s.h.toNat → t.ccr.c = true) ∧
    t.x = s.x ∧ t.sp = s.sp ∧ t.ccr.v = s.ccr.v ∧ t.ccr.h = s.ccr.h ∧ t.ccr.i = s.ccr.i ∧
    t.ccr.n = s.ccr.n ∧ GoesTo s t (s.pc + 1#16) ∧ SameBytes s t ∧ SameSurroundings s t

/-- DAA: the nine rows of the table, `(C, low and high end of A[7:4], half-carry, low and high end of
A[3:0], correction, new C)`; on every combination, in the table or outside it, only `A`, V, N, Z and C are
written, and V is never told (R232). -/
def Obligations.DecimalAdjustInstruction : Prop :=
  ∀ s : State, ∃ t, exec .daa s = .next t ∧
    (∀ row ∈ [(false, 0, 9, false, 0, 9, 0x00#8, false), (false, 0, 8, false, 10, 15, 0x06#8, false),
        (false, 0, 9, true, 0, 3, 0x06#8, false), (false, 10, 15, false, 0, 9, 0x60#8, true),
        (false, 9, 15, false, 10, 15, 0x66#8, true), (false, 10, 15, true, 0, 3, 0x66#8, true),
        (true, 0, 2, false, 0, 9, 0x60#8, true), (true, 0, 2, false, 10, 15, 0x66#8, true),
        (true, 0, 3, true, 0, 3, 0x66#8, true)],
      match row with
      | (c, hi0, hi1, h, lo0, lo1, f, c') =>
        s.ccr.c = c → s.ccr.h = h → hi0 ≤ s.a.toNat / 16 → s.a.toNat / 16 ≤ hi1 →
        lo0 ≤ s.a.toNat % 16 → s.a.toNat % 16 ≤ lo1 →
        t.a = s.a + f ∧ t.ccr.c = c' ∧ t.ccr.n = t.a.msb ∧ (t.ccr.z = true ↔ t.a = 0#8)) ∧
    t.x = s.x ∧ t.h = s.h ∧ t.sp = s.sp ∧ t.ccr.h = s.ccr.h ∧ t.ccr.i = s.ccr.i ∧
    GoesTo s t (s.pc + 1#16) ∧ SameBytes s t ∧ SameSurroundings s t

/-- Adding two bytes of packed BCD with ADD or ADC, in any operand form, and then DAA gives the decimal sum,
its hundreds digit in C (R121, R122, R232). -/
def Obligations.DecimalSum : Prop :=
  ∀ (s u : State) (src : Source) (i : Instr) (cin : Bool),
    let m := sourceValue src s
    let bcd (b : Byte) : Prop := b.toNat / 16 ≤ 9 ∧ b.toNat % 16 ≤ 9
    let value (b : Byte) : Nat := b.toNat / 16 * 10 + b.toNat % 16
    bcd s.a → bcd m → (i = .add src ∧ cin = false) ∨ (i = .adc src ∧ cin = s.ccr.c) →
    exec i s = .next u →
    ∃ t, exec .daa u = .next t ∧ bcd t.a ∧
      value t.a + 100 * t.ccr.c.toNat = value s.a + value m + cin.toNat

/-- WAIT and STOP: I is cleared, the CPU halts at the next instruction, whose opcode is in the buffer; STOP
where `StopBehaviour` does not refuse it, and there the program is refused (R251, R253; 92 D9). -/
def Obligations.HaltInstructions : Prop :=
  (∀ (s : State) (i : Instr) (r : RunState), (i, r) ∈ [(Instr.wait, RunState.waiting), (.stop, .stopped)] →
    (i = .stop → s.params.stopBehaviour = .asWait) →
    ∃ t, exec i s = .next t ∧ t.run = r ∧ t.ccr = { s.ccr with i := false } ∧
      GoesTo s t (s.pc + 1#16) ∧ Registers t s.a s.x s.h s.sp ∧ SameBytes s t ∧
      t.inhibit = s.inhibit ∧ t.inputs = s.inputs ∧ t.schedule = s.schedule ∧ t.params = s.params) ∧
  (∀ s : State, s.params.stopBehaviour = .refuse → exec .stop s = .refused .stopNotPermitted)

/-! ## The whole machine -/

/-- Every step keeps the invariant of the machine (`Inv`), from every state that has it. That `Inv` admits odd
vector addresses is the model's choice (log entry 26). -/
def Obligations.InvariantKeptByEveryStep : Prop :=
  ∀ s t : State, Inv s → step s = .next t → Inv t

/-- The state after reset has the invariant, and the values the spec gives: `pc` from the reset vector,
the opcode there in the buffer, `SP` = `$00FF`, `H` = `$00`, I = 1, running (R35, R290, R291). -/
def Obligations.StateAfterReset : Prop :=
  Inv State.reset ∧
  State.reset.pc = wordOf (State.reset.read 0xFFFE#16) (State.reset.read 0xFFFF#16) ∧
  State.reset.ibuf = State.reset.read State.reset.pc ∧ State.reset.sp = 0x00FF#16 ∧
  State.reset.h = 0x00#8 ∧ State.reset.ccr.i = true ∧ State.reset.run = .running

/-- Memory and the bus. Memory in its canonical form: a read after a write gives the value written there and
the old value elsewhere, a write keeps the form, and memories that read alike are equal (R69). Through
`MemMap`: the first region that holds an address decides, and an address in none is RAM (R4; the form is log
entry 13's); a read of RAM or ROM gives the byte memory holds there, a read of a device what the device
answers (R51; log entry 24), a read where nothing is an open value (92 D12; log entry 5); a store reaches
memory at RAM only, is discarded where nothing is (92 D12), and changes no byte of memory at a device (log
entry 24), in ROM and at a marked address (the model's choice, log entry 13). What is read at a marked address
is not stated: the step that reads there is a fault. One bus cycle stores, tells the device at its address, is
counted and recorded, so that a read in the very next cycle sees it (R69); cycles that store nothing leave RAM
and ROM as they read. -/
def Obligations.MemoryLaws : Prop :=
  (∀ (m : Memory) (a b : Word) (v : Byte), m.wf = true →
    (m.write a.toNat v).wf = true ∧
      (m.write a.toNat v).read b.toNat = if b = a then v else m.read b.toNat) ∧
  (∀ m m' : Memory, m.wf = true → m'.wf = true →
    (∀ a : Word, m.read a.toNat = m'.read a.toNat) → m = m') ∧
  (∀ (rs : List Config.Region) (a : Word),
    (regionKindAt rs a = none ↔ ∀ r ∈ rs, ¬ (r.lo.toNat ≤ a.toNat ∧ a.toNat ≤ r.hi.toNat)) ∧
    (∀ (k : Nat) (r : Config.Region), rs[k]? = some r → r.lo.toNat ≤ a.toNat → a.toNat ≤ r.hi.toNat →
      (∀ j, j < k → ∀ q, rs[j]? = some q → ¬ (q.lo.toNat ≤ a.toNat ∧ a.toNat ≤ q.hi.toNat)) →
      regionKindAt rs a = some r.kind)) ∧
  (∀ (s : State) (a : Word), match regionKindAt s.params.memMap a with
    | none => s.read a = s.mem.read a.toNat
    | some .rom => s.read a = s.mem.read a.toNat
    | some .device => s.read a = Config.deviceByte a s.io s.cycles
    | some .nothing => s.read a = Config.drawByte (.openBus a) s.cycles
    | some .fault => True) ∧
  (∀ (s : State) (a : Word) (v : Byte),
    (regionKindAt s.params.memMap a = none → s.write a v = { s with mem := s.mem.write a.toNat v } ∧
      (s.mem.wf = true → (s.write a v).read a = v)) ∧
    (regionKindAt s.params.memMap a ≠ none → s.write a v = s) ∧
    (∀ b : Word, b ≠ a → (s.write a v).read b = s.read b)) ∧
  (∀ (s : State) (c : BusAccess),
    (s.access c).mem = memoryAfter s [c] ∧ (s.access c).io = devicesSeen s [c] ∧
    (s.access c).cycles = s.cycles + 1 ∧ (s.access c).bus = s.bus ++ [c] ∧
    (c.kind = .w ∨ c.kind = .s → match regionKindAt s.params.memMap c.addr with
      | none => s.mem.wf = true → (s.access c).read c.addr = c.data
      | some .rom => (s.access c).read c.addr = s.mem.read c.addr.toNat
      | some .device =>
        (s.access c).read c.addr = Config.deviceByte c.addr (⟨c.addr, some c.data⟩ :: s.io) (s.cycles + 1)
      | some .nothing => (s.access c).read c.addr = Config.drawByte (.openBus c.addr) (s.cycles + 1)
      | some .fault => True) ∧
    (c.stored = none → ∀ a : Word, regionKindAt s.params.memMap a ∈ [none, some .rom] →
      (s.access c).read a = s.mem.read a.toNat)) ∧
  (∀ (s : State) (m : MemMode), regionKindAt s.params.memMap (effectiveAddress m s) ∈ [none, some .rom] →
    memoryValue m s = s.mem.read (effectiveAddress m s).toNat)

/-- No instruction of Table 1 stops the machine: every one answers a next state from every state, but STOP
where `StopBehaviour` refuses it (R276; 92 D9). -/
def Obligations.EveryInstructionCompletes : Prop :=
  ∀ (i : Instr) (s : State), (i = .stop → s.params.stopBehaviour = .asWait) → ∃ t, exec i s = .next t

/-- An instruction changes a flag only if R28 lists it as a writer of that flag. -/
def Obligations.WritersOfFlags : Prop :=
  ∀ (i : Instr) (s t : State), exec i s = .next t →
    (writesV i = false → t.ccr.v = s.ccr.v) ∧ (writesHalf i = false → t.ccr.h = s.ccr.h) ∧
    (writesI i = false → t.ccr.i = s.ccr.i) ∧ (writesN i = false → t.ccr.n = s.ccr.n) ∧
    (writesZ i = false → t.ccr.z = s.ccr.z) ∧ (writesC i = false → t.ccr.c = s.ccr.c)

/-- An instruction changes a register, or memory, only if R21 to R23 and R68 list it as a writer; it never
changes the inputs or the parameters, and only WAIT and STOP change the run state; the count of bus cycles
grows by the length of its cycle code (R304), and what the devices have seen only grows. At an address that
is not RAM no instruction changes memory: where `MemMap` places nothing the store is discarded (92 D12); that
a device takes the store itself (log entry 24) and that a store to ROM changes nothing (log entry 13) are the
model's choices. -/
def Obligations.WritersOfRegistersAndMemory : Prop :=
  ∀ (i : Instr) (s t : State), exec i s = .next t →
    (writesA i = false → t.a = s.a) ∧ (writesX i = false → t.x = s.x) ∧
    (writesH i = false → t.h = s.h) ∧ (writesSp i = false → t.sp = s.sp) ∧
    (writesMemory i = false → SameBytes s t) ∧
    (i ≠ .wait → i ≠ .stop → t.run = s.run) ∧
    t.inputs = s.inputs ∧ t.schedule = s.schedule ∧ t.params = s.params ∧
    t.cycles = s.cycles + cycleCount i ∧ (∃ seen, t.io = seen ++ s.io) ∧
    (∀ b : Word, s.isRam b = false → t.mem.read b.toNat = s.mem.read b.toNat)

/-- The prefetched opcode is the byte that the last program fetch finds (R30, R69). In RAM and ROM it sees the
instruction's own stores, except in the forms that store after the last program fetch: there it is the byte
from before them (R72, R300). -/
def Obligations.PrefetchedOpcode : Prop :=
  ∀ (i : Instr) (s t : State), exec i s = .next t →
    OpcodeFetched s t ∧
    (regionKindAt s.params.memMap t.pc ∈ [none, some .rom] →
      t.ibuf = if storesAfterFetch i then s.mem.read t.pc.toNat else t.mem.read t.pc.toNat)

/-- An instruction that does not transfer control ends with `pc` past its own object code (R25, R53). -/
def Obligations.PcAdvancesByLength : Prop :=
  ∀ (i : Instr) (s t : State), WellFormed i → transfersControl i = false → exec i s = .next t →
    t.pc = s.pc + BitVec.ofNat 16 (encode i).length

/-- The end of a run, which the model defines (R294; 92 D27, log entry 23): a run given an end address ends in
a state that some number of steps reaches, with `pc` at that address, before the instruction there, and with
no earlier state of the run there; and a run that has ended, or faulted, comes out the same with more steps
allowed. -/
def Obligations.EndOfRun : Prop :=
  ∀ (stop : Word) (n : Nat) (s : State),
    (∀ t, runTo stop n s = .ended t →
      t.pc = stop ∧ ∃ k, k ≤ n ∧ Sys2Proof.core.run k s = .next t ∧
        ∀ j, j < k → ∀ u : State, Sys2Proof.core.run j s = .next u → u.pc ≠ stop) ∧
    (∀ m, n ≤ m → (∀ t, runTo stop n s = .ended t → runTo stop m s = .ended t) ∧
      (∀ f, runTo stop n s = .fault f → runTo stop m s = .fault f))
end

