-- ==== Sys2Proof/Laws/State.lean ====
section
/-! SUPPORT. One lemma per field per update of one field, and what reading memory sees of an update. -/

namespace Sys2Proof.Machine

/-! ### `setA` -/

@[simp] theorem State.setA_a (s : State) (v : Byte) : (s.setA v).a = v := rfl
@[simp] theorem State.setA_x (s : State) (v : Byte) : (s.setA v).x = s.x := rfl
@[simp] theorem State.setA_h (s : State) (v : Byte) : (s.setA v).h = s.h := rfl
@[simp] theorem State.setA_sp (s : State) (v : Byte) : (s.setA v).sp = s.sp := rfl
@[simp] theorem State.setA_pc (s : State) (v : Byte) : (s.setA v).pc = s.pc := rfl
@[simp] theorem State.setA_ccr (s : State) (v : Byte) : (s.setA v).ccr = s.ccr := rfl
@[simp] theorem State.setA_ibuf (s : State) (v : Byte) : (s.setA v).ibuf = s.ibuf := rfl
@[simp] theorem State.setA_run (s : State) (v : Byte) : (s.setA v).run = s.run := rfl
@[simp] theorem State.setA_inhibit (s : State) (v : Byte) : (s.setA v).inhibit = s.inhibit := rfl
@[simp] theorem State.setA_mem (s : State) (v : Byte) : (s.setA v).mem = s.mem := rfl
@[simp] theorem State.setA_io (s : State) (v : Byte) : (s.setA v).io = s.io := rfl
@[simp] theorem State.setA_inputs (s : State) (v : Byte) : (s.setA v).inputs = s.inputs := rfl
@[simp] theorem State.setA_schedule (s : State) (v : Byte) : (s.setA v).schedule = s.schedule := rfl
@[simp] theorem State.setA_params (s : State) (v : Byte) : (s.setA v).params = s.params := rfl
@[simp] theorem State.setA_cycles (s : State) (v : Byte) : (s.setA v).cycles = s.cycles := rfl
@[simp] theorem State.setA_bus (s : State) (v : Byte) : (s.setA v).bus = s.bus := rfl
@[simp] theorem State.setA_read (s : State) (v : Byte) (b : Word) : (s.setA v).read b = s.read b := rfl
@[simp] theorem State.setA_isRam (s : State) (v : Byte) (b : Word) : (s.setA v).isRam b = s.isRam b := rfl

/-! ### `setX` -/

@[simp] theorem State.setX_a (s : State) (v : Byte) : (s.setX v).a = s.a := rfl
@[simp] theorem State.setX_x (s : State) (v : Byte) : (s.setX v).x = v := rfl
@[simp] theorem State.setX_h (s : State) (v : Byte) : (s.setX v).h = s.h := rfl
@[simp] theorem State.setX_sp (s : State) (v : Byte) : (s.setX v).sp = s.sp := rfl
@[simp] theorem State.setX_pc (s : State) (v : Byte) : (s.setX v).pc = s.pc := rfl
@[simp] theorem State.setX_ccr (s : State) (v : Byte) : (s.setX v).ccr = s.ccr := rfl
@[simp] theorem State.setX_ibuf (s : State) (v : Byte) : (s.setX v).ibuf = s.ibuf := rfl
@[simp] theorem State.setX_run (s : State) (v : Byte) : (s.setX v).run = s.run := rfl
@[simp] theorem State.setX_inhibit (s : State) (v : Byte) : (s.setX v).inhibit = s.inhibit := rfl
@[simp] theorem State.setX_mem (s : State) (v : Byte) : (s.setX v).mem = s.mem := rfl
@[simp] theorem State.setX_io (s : State) (v : Byte) : (s.setX v).io = s.io := rfl
@[simp] theorem State.setX_inputs (s : State) (v : Byte) : (s.setX v).inputs = s.inputs := rfl
@[simp] theorem State.setX_schedule (s : State) (v : Byte) : (s.setX v).schedule = s.schedule := rfl
@[simp] theorem State.setX_params (s : State) (v : Byte) : (s.setX v).params = s.params := rfl
@[simp] theorem State.setX_cycles (s : State) (v : Byte) : (s.setX v).cycles = s.cycles := rfl
@[simp] theorem State.setX_bus (s : State) (v : Byte) : (s.setX v).bus = s.bus := rfl
@[simp] theorem State.setX_read (s : State) (v : Byte) (b : Word) : (s.setX v).read b = s.read b := rfl
@[simp] theorem State.setX_isRam (s : State) (v : Byte) (b : Word) : (s.setX v).isRam b = s.isRam b := rfl

/-! ### `setH` -/

@[simp] theorem State.setH_a (s : State) (v : Byte) : (s.setH v).a = s.a := rfl
@[simp] theorem State.setH_x (s : State) (v : Byte) : (s.setH v).x = s.x := rfl
@[simp] theorem State.setH_h (s : State) (v : Byte) : (s.setH v).h = v := rfl
@[simp] theorem State.setH_sp (s : State) (v : Byte) : (s.setH v).sp = s.sp := rfl
@[simp] theorem State.setH_pc (s : State) (v : Byte) : (s.setH v).pc = s.pc := rfl
@[simp] theorem State.setH_ccr (s : State) (v : Byte) : (s.setH v).ccr = s.ccr := rfl
@[simp] theorem State.setH_ibuf (s : State) (v : Byte) : (s.setH v).ibuf = s.ibuf := rfl
@[simp] theorem State.setH_run (s : State) (v : Byte) : (s.setH v).run = s.run := rfl
@[simp] theorem State.setH_inhibit (s : State) (v : Byte) : (s.setH v).inhibit = s.inhibit := rfl
@[simp] theorem State.setH_mem (s : State) (v : Byte) : (s.setH v).mem = s.mem := rfl
@[simp] theorem State.setH_io (s : State) (v : Byte) : (s.setH v).io = s.io := rfl
@[simp] theorem State.setH_inputs (s : State) (v : Byte) : (s.setH v).inputs = s.inputs := rfl
@[simp] theorem State.setH_schedule (s : State) (v : Byte) : (s.setH v).schedule = s.schedule := rfl
@[simp] theorem State.setH_params (s : State) (v : Byte) : (s.setH v).params = s.params := rfl
@[simp] theorem State.setH_cycles (s : State) (v : Byte) : (s.setH v).cycles = s.cycles := rfl
@[simp] theorem State.setH_bus (s : State) (v : Byte) : (s.setH v).bus = s.bus := rfl
@[simp] theorem State.setH_read (s : State) (v : Byte) (b : Word) : (s.setH v).read b = s.read b := rfl
@[simp] theorem State.setH_isRam (s : State) (v : Byte) (b : Word) : (s.setH v).isRam b = s.isRam b := rfl

/-! ### `setSp` -/

@[simp] theorem State.setSp_a (s : State) (v : Word) : (s.setSp v).a = s.a := rfl
@[simp] theorem State.setSp_x (s : State) (v : Word) : (s.setSp v).x = s.x := rfl
@[simp] theorem State.setSp_h (s : State) (v : Word) : (s.setSp v).h = s.h := rfl
@[simp] theorem State.setSp_sp (s : State) (v : Word) : (s.setSp v).sp = v := rfl
@[simp] theorem State.setSp_pc (s : State) (v : Word) : (s.setSp v).pc = s.pc := rfl
@[simp] theorem State.setSp_ccr (s : State) (v : Word) : (s.setSp v).ccr = s.ccr := rfl
@[simp] theorem State.setSp_ibuf (s : State) (v : Word) : (s.setSp v).ibuf = s.ibuf := rfl
@[simp] theorem State.setSp_run (s : State) (v : Word) : (s.setSp v).run = s.run := rfl
@[simp] theorem State.setSp_inhibit (s : State) (v : Word) : (s.setSp v).inhibit = s.inhibit := rfl
@[simp] theorem State.setSp_mem (s : State) (v : Word) : (s.setSp v).mem = s.mem := rfl
@[simp] theorem State.setSp_io (s : State) (v : Word) : (s.setSp v).io = s.io := rfl
@[simp] theorem State.setSp_inputs (s : State) (v : Word) : (s.setSp v).inputs = s.inputs := rfl
@[simp] theorem State.setSp_schedule (s : State) (v : Word) : (s.setSp v).schedule = s.schedule := rfl
@[simp] theorem State.setSp_params (s : State) (v : Word) : (s.setSp v).params = s.params := rfl
@[simp] theorem State.setSp_cycles (s : State) (v : Word) : (s.setSp v).cycles = s.cycles := rfl
@[simp] theorem State.setSp_bus (s : State) (v : Word) : (s.setSp v).bus = s.bus := rfl
@[simp] theorem State.setSp_read (s : State) (v : Word) (b : Word) : (s.setSp v).read b = s.read b := rfl
@[simp] theorem State.setSp_isRam (s : State) (v : Word) (b : Word) : (s.setSp v).isRam b = s.isRam b := rfl

/-! ### `setPc` -/

@[simp] theorem State.setPc_a (s : State) (v : Word) : (s.setPc v).a = s.a := rfl
@[simp] theorem State.setPc_x (s : State) (v : Word) : (s.setPc v).x = s.x := rfl
@[simp] theorem State.setPc_h (s : State) (v : Word) : (s.setPc v).h = s.h := rfl
@[simp] theorem State.setPc_sp (s : State) (v : Word) : (s.setPc v).sp = s.sp := rfl
@[simp] theorem State.setPc_pc (s : State) (v : Word) : (s.setPc v).pc = v := rfl
@[simp] theorem State.setPc_ccr (s : State) (v : Word) : (s.setPc v).ccr = s.ccr := rfl
@[simp] theorem State.setPc_ibuf (s : State) (v : Word) : (s.setPc v).ibuf = s.ibuf := rfl
@[simp] theorem State.setPc_run (s : State) (v : Word) : (s.setPc v).run = s.run := rfl
@[simp] theorem State.setPc_inhibit (s : State) (v : Word) : (s.setPc v).inhibit = s.inhibit := rfl
@[simp] theorem State.setPc_mem (s : State) (v : Word) : (s.setPc v).mem = s.mem := rfl
@[simp] theorem State.setPc_io (s : State) (v : Word) : (s.setPc v).io = s.io := rfl
@[simp] theorem State.setPc_inputs (s : State) (v : Word) : (s.setPc v).inputs = s.inputs := rfl
@[simp] theorem State.setPc_schedule (s : State) (v : Word) : (s.setPc v).schedule = s.schedule := rfl
@[simp] theorem State.setPc_params (s : State) (v : Word) : (s.setPc v).params = s.params := rfl
@[simp] theorem State.setPc_cycles (s : State) (v : Word) : (s.setPc v).cycles = s.cycles := rfl
@[simp] theorem State.setPc_bus (s : State) (v : Word) : (s.setPc v).bus = s.bus := rfl
@[simp] theorem State.setPc_read (s : State) (v : Word) (b : Word) : (s.setPc v).read b = s.read b := rfl
@[simp] theorem State.setPc_isRam (s : State) (v : Word) (b : Word) : (s.setPc v).isRam b = s.isRam b := rfl

/-! ### `setCcr` -/

@[simp] theorem State.setCcr_a (s : State) (v : Ccr) : (s.setCcr v).a = s.a := rfl
@[simp] theorem State.setCcr_x (s : State) (v : Ccr) : (s.setCcr v).x = s.x := rfl
@[simp] theorem State.setCcr_h (s : State) (v : Ccr) : (s.setCcr v).h = s.h := rfl
@[simp] theorem State.setCcr_sp (s : State) (v : Ccr) : (s.setCcr v).sp = s.sp := rfl
@[simp] theorem State.setCcr_pc (s : State) (v : Ccr) : (s.setCcr v).pc = s.pc := rfl
@[simp] theorem State.setCcr_ccr (s : State) (v : Ccr) : (s.setCcr v).ccr = v := rfl
@[simp] theorem State.setCcr_ibuf (s : State) (v : Ccr) : (s.setCcr v).ibuf = s.ibuf := rfl
@[simp] theorem State.setCcr_run (s : State) (v : Ccr) : (s.setCcr v).run = s.run := rfl
@[simp] theorem State.setCcr_inhibit (s : State) (v : Ccr) : (s.setCcr v).inhibit = s.inhibit := rfl
@[simp] theorem State.setCcr_mem (s : State) (v : Ccr) : (s.setCcr v).mem = s.mem := rfl
@[simp] theorem State.setCcr_io (s : State) (v : Ccr) : (s.setCcr v).io = s.io := rfl
@[simp] theorem State.setCcr_inputs (s : State) (v : Ccr) : (s.setCcr v).inputs = s.inputs := rfl
@[simp] theorem State.setCcr_schedule (s : State) (v : Ccr) : (s.setCcr v).schedule = s.schedule := rfl
@[simp] theorem State.setCcr_params (s : State) (v : Ccr) : (s.setCcr v).params = s.params := rfl
@[simp] theorem State.setCcr_cycles (s : State) (v : Ccr) : (s.setCcr v).cycles = s.cycles := rfl
@[simp] theorem State.setCcr_bus (s : State) (v : Ccr) : (s.setCcr v).bus = s.bus := rfl
@[simp] theorem State.setCcr_read (s : State) (v : Ccr) (b : Word) : (s.setCcr v).read b = s.read b := rfl
@[simp] theorem State.setCcr_isRam (s : State) (v : Ccr) (b : Word) : (s.setCcr v).isRam b = s.isRam b := rfl

/-! ### `setIbuf` -/

@[simp] theorem State.setIbuf_a (s : State) (v : Byte) : (s.setIbuf v).a = s.a := rfl
@[simp] theorem State.setIbuf_x (s : State) (v : Byte) : (s.setIbuf v).x = s.x := rfl
@[simp] theorem State.setIbuf_h (s : State) (v : Byte) : (s.setIbuf v).h = s.h := rfl
@[simp] theorem State.setIbuf_sp (s : State) (v : Byte) : (s.setIbuf v).sp = s.sp := rfl
@[simp] theorem State.setIbuf_pc (s : State) (v : Byte) : (s.setIbuf v).pc = s.pc := rfl
@[simp] theorem State.setIbuf_ccr (s : State) (v : Byte) : (s.setIbuf v).ccr = s.ccr := rfl
@[simp] theorem State.setIbuf_ibuf (s : State) (v : Byte) : (s.setIbuf v).ibuf = v := rfl
@[simp] theorem State.setIbuf_run (s : State) (v : Byte) : (s.setIbuf v).run = s.run := rfl
@[simp] theorem State.setIbuf_inhibit (s : State) (v : Byte) : (s.setIbuf v).inhibit = s.inhibit := rfl
@[simp] theorem State.setIbuf_mem (s : State) (v : Byte) : (s.setIbuf v).mem = s.mem := rfl
@[simp] theorem State.setIbuf_io (s : State) (v : Byte) : (s.setIbuf v).io = s.io := rfl
@[simp] theorem State.setIbuf_inputs (s : State) (v : Byte) : (s.setIbuf v).inputs = s.inputs := rfl
@[simp] theorem State.setIbuf_schedule (s : State) (v : Byte) : (s.setIbuf v).schedule = s.schedule := rfl
@[simp] theorem State.setIbuf_params (s : State) (v : Byte) : (s.setIbuf v).params = s.params := rfl
@[simp] theorem State.setIbuf_cycles (s : State) (v : Byte) : (s.setIbuf v).cycles = s.cycles := rfl
@[simp] theorem State.setIbuf_bus (s : State) (v : Byte) : (s.setIbuf v).bus = s.bus := rfl
@[simp] theorem State.setIbuf_read (s : State) (v : Byte) (b : Word) : (s.setIbuf v).read b = s.read b := rfl
@[simp] theorem State.setIbuf_isRam (s : State) (v : Byte) (b : Word) : (s.setIbuf v).isRam b = s.isRam b := rfl

/-! ### `setRun` -/

@[simp] theorem State.setRun_a (s : State) (v : RunState) : (s.setRun v).a = s.a := rfl
@[simp] theorem State.setRun_x (s : State) (v : RunState) : (s.setRun v).x = s.x := rfl
@[simp] theorem State.setRun_h (s : State) (v : RunState) : (s.setRun v).h = s.h := rfl
@[simp] theorem State.setRun_sp (s : State) (v : RunState) : (s.setRun v).sp = s.sp := rfl
@[simp] theorem State.setRun_pc (s : State) (v : RunState) : (s.setRun v).pc = s.pc := rfl
@[simp] theorem State.setRun_ccr (s : State) (v : RunState) : (s.setRun v).ccr = s.ccr := rfl
@[simp] theorem State.setRun_ibuf (s : State) (v : RunState) : (s.setRun v).ibuf = s.ibuf := rfl
@[simp] theorem State.setRun_run (s : State) (v : RunState) : (s.setRun v).run = v := rfl
@[simp] theorem State.setRun_inhibit (s : State) (v : RunState) : (s.setRun v).inhibit = s.inhibit := rfl
@[simp] theorem State.setRun_mem (s : State) (v : RunState) : (s.setRun v).mem = s.mem := rfl
@[simp] theorem State.setRun_io (s : State) (v : RunState) : (s.setRun v).io = s.io := rfl
@[simp] theorem State.setRun_inputs (s : State) (v : RunState) : (s.setRun v).inputs = s.inputs := rfl
@[simp] theorem State.setRun_schedule (s : State) (v : RunState) : (s.setRun v).schedule = s.schedule := rfl
@[simp] theorem State.setRun_params (s : State) (v : RunState) : (s.setRun v).params = s.params := rfl
@[simp] theorem State.setRun_cycles (s : State) (v : RunState) : (s.setRun v).cycles = s.cycles := rfl
@[simp] theorem State.setRun_bus (s : State) (v : RunState) : (s.setRun v).bus = s.bus := rfl
@[simp] theorem State.setRun_read (s : State) (v : RunState) (b : Word) : (s.setRun v).read b = s.read b := rfl
@[simp] theorem State.setRun_isRam (s : State) (v : RunState) (b : Word) : (s.setRun v).isRam b = s.isRam b := rfl

/-! ### `setInhibit` -/

@[simp] theorem State.setInhibit_a (s : State) (v : Bool) : (s.setInhibit v).a = s.a := rfl
@[simp] theorem State.setInhibit_x (s : State) (v : Bool) : (s.setInhibit v).x = s.x := rfl
@[simp] theorem State.setInhibit_h (s : State) (v : Bool) : (s.setInhibit v).h = s.h := rfl
@[simp] theorem State.setInhibit_sp (s : State) (v : Bool) : (s.setInhibit v).sp = s.sp := rfl
@[simp] theorem State.setInhibit_pc (s : State) (v : Bool) : (s.setInhibit v).pc = s.pc := rfl
@[simp] theorem State.setInhibit_ccr (s : State) (v : Bool) : (s.setInhibit v).ccr = s.ccr := rfl
@[simp] theorem State.setInhibit_ibuf (s : State) (v : Bool) : (s.setInhibit v).ibuf = s.ibuf := rfl
@[simp] theorem State.setInhibit_run (s : State) (v : Bool) : (s.setInhibit v).run = s.run := rfl
@[simp] theorem State.setInhibit_inhibit (s : State) (v : Bool) : (s.setInhibit v).inhibit = v := rfl
@[simp] theorem State.setInhibit_mem (s : State) (v : Bool) : (s.setInhibit v).mem = s.mem := rfl
@[simp] theorem State.setInhibit_io (s : State) (v : Bool) : (s.setInhibit v).io = s.io := rfl
@[simp] theorem State.setInhibit_inputs (s : State) (v : Bool) : (s.setInhibit v).inputs = s.inputs := rfl
@[simp] theorem State.setInhibit_schedule (s : State) (v : Bool) : (s.setInhibit v).schedule = s.schedule := rfl
@[simp] theorem State.setInhibit_params (s : State) (v : Bool) : (s.setInhibit v).params = s.params := rfl
@[simp] theorem State.setInhibit_cycles (s : State) (v : Bool) : (s.setInhibit v).cycles = s.cycles := rfl
@[simp] theorem State.setInhibit_bus (s : State) (v : Bool) : (s.setInhibit v).bus = s.bus := rfl
@[simp] theorem State.setInhibit_read (s : State) (v : Bool) (b : Word) : (s.setInhibit v).read b = s.read b := rfl
@[simp] theorem State.setInhibit_isRam (s : State) (v : Bool) (b : Word) : (s.setInhibit v).isRam b = s.isRam b := rfl

/-! ### `setMem` -/

@[simp] theorem State.setMem_a (s : State) (v : Memory) : (s.setMem v).a = s.a := rfl
@[simp] theorem State.setMem_x (s : State) (v : Memory) : (s.setMem v).x = s.x := rfl
@[simp] theorem State.setMem_h (s : State) (v : Memory) : (s.setMem v).h = s.h := rfl
@[simp] theorem State.setMem_sp (s : State) (v : Memory) : (s.setMem v).sp = s.sp := rfl
@[simp] theorem State.setMem_pc (s : State) (v : Memory) : (s.setMem v).pc = s.pc := rfl
@[simp] theorem State.setMem_ccr (s : State) (v : Memory) : (s.setMem v).ccr = s.ccr := rfl
@[simp] theorem State.setMem_ibuf (s : State) (v : Memory) : (s.setMem v).ibuf = s.ibuf := rfl
@[simp] theorem State.setMem_run (s : State) (v : Memory) : (s.setMem v).run = s.run := rfl
@[simp] theorem State.setMem_inhibit (s : State) (v : Memory) : (s.setMem v).inhibit = s.inhibit := rfl
@[simp] theorem State.setMem_mem (s : State) (v : Memory) : (s.setMem v).mem = v := rfl
@[simp] theorem State.setMem_io (s : State) (v : Memory) : (s.setMem v).io = s.io := rfl
@[simp] theorem State.setMem_inputs (s : State) (v : Memory) : (s.setMem v).inputs = s.inputs := rfl
@[simp] theorem State.setMem_schedule (s : State) (v : Memory) : (s.setMem v).schedule = s.schedule := rfl
@[simp] theorem State.setMem_params (s : State) (v : Memory) : (s.setMem v).params = s.params := rfl
@[simp] theorem State.setMem_cycles (s : State) (v : Memory) : (s.setMem v).cycles = s.cycles := rfl
@[simp] theorem State.setMem_bus (s : State) (v : Memory) : (s.setMem v).bus = s.bus := rfl
@[simp] theorem State.setMem_isRam (s : State) (v : Memory) (b : Word) : (s.setMem v).isRam b = s.isRam b := rfl

/-! ### `setIo` -/

@[simp] theorem State.setIo_a (s : State) (v : List Config.DeviceAccess) : (s.setIo v).a = s.a := rfl
@[simp] theorem State.setIo_x (s : State) (v : List Config.DeviceAccess) : (s.setIo v).x = s.x := rfl
@[simp] theorem State.setIo_h (s : State) (v : List Config.DeviceAccess) : (s.setIo v).h = s.h := rfl
@[simp] theorem State.setIo_sp (s : State) (v : List Config.DeviceAccess) : (s.setIo v).sp = s.sp := rfl
@[simp] theorem State.setIo_pc (s : State) (v : List Config.DeviceAccess) : (s.setIo v).pc = s.pc := rfl
@[simp] theorem State.setIo_ccr (s : State) (v : List Config.DeviceAccess) : (s.setIo v).ccr = s.ccr := rfl
@[simp] theorem State.setIo_ibuf (s : State) (v : List Config.DeviceAccess) : (s.setIo v).ibuf = s.ibuf := rfl
@[simp] theorem State.setIo_run (s : State) (v : List Config.DeviceAccess) : (s.setIo v).run = s.run := rfl
@[simp] theorem State.setIo_inhibit (s : State) (v : List Config.DeviceAccess) : (s.setIo v).inhibit = s.inhibit := rfl
@[simp] theorem State.setIo_mem (s : State) (v : List Config.DeviceAccess) : (s.setIo v).mem = s.mem := rfl
@[simp] theorem State.setIo_io (s : State) (v : List Config.DeviceAccess) : (s.setIo v).io = v := rfl
@[simp] theorem State.setIo_inputs (s : State) (v : List Config.DeviceAccess) : (s.setIo v).inputs = s.inputs := rfl
@[simp] theorem State.setIo_schedule (s : State) (v : List Config.DeviceAccess) : (s.setIo v).schedule = s.schedule := rfl
@[simp] theorem State.setIo_params (s : State) (v : List Config.DeviceAccess) : (s.setIo v).params = s.params := rfl
@[simp] theorem State.setIo_cycles (s : State) (v : List Config.DeviceAccess) : (s.setIo v).cycles = s.cycles := rfl
@[simp] theorem State.setIo_bus (s : State) (v : List Config.DeviceAccess) : (s.setIo v).bus = s.bus := rfl
@[simp] theorem State.setIo_isRam (s : State) (v : List Config.DeviceAccess) (b : Word) : (s.setIo v).isRam b = s.isRam b := rfl

/-! ### `setInputs` -/

@[simp] theorem State.setInputs_a (s : State) (v : Inputs) : (s.setInputs v).a = s.a := rfl
@[simp] theorem State.setInputs_x (s : State) (v : Inputs) : (s.setInputs v).x = s.x := rfl
@[simp] theorem State.setInputs_h (s : State) (v : Inputs) : (s.setInputs v).h = s.h := rfl
@[simp] theorem State.setInputs_sp (s : State) (v : Inputs) : (s.setInputs v).sp = s.sp := rfl
@[simp] theorem State.setInputs_pc (s : State) (v : Inputs) : (s.setInputs v).pc = s.pc := rfl
@[simp] theorem State.setInputs_ccr (s : State) (v : Inputs) : (s.setInputs v).ccr = s.ccr := rfl
@[simp] theorem State.setInputs_ibuf (s : State) (v : Inputs) : (s.setInputs v).ibuf = s.ibuf := rfl
@[simp] theorem State.setInputs_run (s : State) (v : Inputs) : (s.setInputs v).run = s.run := rfl
@[simp] theorem State.setInputs_inhibit (s : State) (v : Inputs) : (s.setInputs v).inhibit = s.inhibit := rfl
@[simp] theorem State.setInputs_mem (s : State) (v : Inputs) : (s.setInputs v).mem = s.mem := rfl
@[simp] theorem State.setInputs_io (s : State) (v : Inputs) : (s.setInputs v).io = s.io := rfl
@[simp] theorem State.setInputs_inputs (s : State) (v : Inputs) : (s.setInputs v).inputs = v := rfl
@[simp] theorem State.setInputs_schedule (s : State) (v : Inputs) : (s.setInputs v).schedule = s.schedule := rfl
@[simp] theorem State.setInputs_params (s : State) (v : Inputs) : (s.setInputs v).params = s.params := rfl
@[simp] theorem State.setInputs_cycles (s : State) (v : Inputs) : (s.setInputs v).cycles = s.cycles := rfl
@[simp] theorem State.setInputs_bus (s : State) (v : Inputs) : (s.setInputs v).bus = s.bus := rfl
@[simp] theorem State.setInputs_read (s : State) (v : Inputs) (b : Word) : (s.setInputs v).read b = s.read b := rfl
@[simp] theorem State.setInputs_isRam (s : State) (v : Inputs) (b : Word) : (s.setInputs v).isRam b = s.isRam b := rfl

/-! ### `setSchedule` -/

@[simp] theorem State.setSchedule_a (s : State) (v : List Inputs) : (s.setSchedule v).a = s.a := rfl
@[simp] theorem State.setSchedule_x (s : State) (v : List Inputs) : (s.setSchedule v).x = s.x := rfl
@[simp] theorem State.setSchedule_h (s : State) (v : List Inputs) : (s.setSchedule v).h = s.h := rfl
@[simp] theorem State.setSchedule_sp (s : State) (v : List Inputs) : (s.setSchedule v).sp = s.sp := rfl
@[simp] theorem State.setSchedule_pc (s : State) (v : List Inputs) : (s.setSchedule v).pc = s.pc := rfl
@[simp] theorem State.setSchedule_ccr (s : State) (v : List Inputs) : (s.setSchedule v).ccr = s.ccr := rfl
@[simp] theorem State.setSchedule_ibuf (s : State) (v : List Inputs) : (s.setSchedule v).ibuf = s.ibuf := rfl
@[simp] theorem State.setSchedule_run (s : State) (v : List Inputs) : (s.setSchedule v).run = s.run := rfl
@[simp] theorem State.setSchedule_inhibit (s : State) (v : List Inputs) : (s.setSchedule v).inhibit = s.inhibit := rfl
@[simp] theorem State.setSchedule_mem (s : State) (v : List Inputs) : (s.setSchedule v).mem = s.mem := rfl
@[simp] theorem State.setSchedule_io (s : State) (v : List Inputs) : (s.setSchedule v).io = s.io := rfl
@[simp] theorem State.setSchedule_inputs (s : State) (v : List Inputs) : (s.setSchedule v).inputs = s.inputs := rfl
@[simp] theorem State.setSchedule_schedule (s : State) (v : List Inputs) : (s.setSchedule v).schedule = v := rfl
@[simp] theorem State.setSchedule_params (s : State) (v : List Inputs) : (s.setSchedule v).params = s.params := rfl
@[simp] theorem State.setSchedule_cycles (s : State) (v : List Inputs) : (s.setSchedule v).cycles = s.cycles := rfl
@[simp] theorem State.setSchedule_bus (s : State) (v : List Inputs) : (s.setSchedule v).bus = s.bus := rfl
@[simp] theorem State.setSchedule_read (s : State) (v : List Inputs) (b : Word) : (s.setSchedule v).read b = s.read b := rfl
@[simp] theorem State.setSchedule_isRam (s : State) (v : List Inputs) (b : Word) : (s.setSchedule v).isRam b = s.isRam b := rfl

/-! ### `setCycles` -/

@[simp] theorem State.setCycles_a (s : State) (v : Nat) : (s.setCycles v).a = s.a := rfl
@[simp] theorem State.setCycles_x (s : State) (v : Nat) : (s.setCycles v).x = s.x := rfl
@[simp] theorem State.setCycles_h (s : State) (v : Nat) : (s.setCycles v).h = s.h := rfl
@[simp] theorem State.setCycles_sp (s : State) (v : Nat) : (s.setCycles v).sp = s.sp := rfl
@[simp] theorem State.setCycles_pc (s : State) (v : Nat) : (s.setCycles v).pc = s.pc := rfl
@[simp] theorem State.setCycles_ccr (s : State) (v : Nat) : (s.setCycles v).ccr = s.ccr := rfl
@[simp] theorem State.setCycles_ibuf (s : State) (v : Nat) : (s.setCycles v).ibuf = s.ibuf := rfl
@[simp] theorem State.setCycles_run (s : State) (v : Nat) : (s.setCycles v).run = s.run := rfl
@[simp] theorem State.setCycles_inhibit (s : State) (v : Nat) : (s.setCycles v).inhibit = s.inhibit := rfl
@[simp] theorem State.setCycles_mem (s : State) (v : Nat) : (s.setCycles v).mem = s.mem := rfl
@[simp] theorem State.setCycles_io (s : State) (v : Nat) : (s.setCycles v).io = s.io := rfl
@[simp] theorem State.setCycles_inputs (s : State) (v : Nat) : (s.setCycles v).inputs = s.inputs := rfl
@[simp] theorem State.setCycles_schedule (s : State) (v : Nat) : (s.setCycles v).schedule = s.schedule := rfl
@[simp] theorem State.setCycles_params (s : State) (v : Nat) : (s.setCycles v).params = s.params := rfl
@[simp] theorem State.setCycles_cycles (s : State) (v : Nat) : (s.setCycles v).cycles = v := rfl
@[simp] theorem State.setCycles_bus (s : State) (v : Nat) : (s.setCycles v).bus = s.bus := rfl
@[simp] theorem State.setCycles_isRam (s : State) (v : Nat) (b : Word) : (s.setCycles v).isRam b = s.isRam b := rfl

/-! ### `setBus` -/

@[simp] theorem State.setBus_a (s : State) (v : List BusAccess) : (s.setBus v).a = s.a := rfl
@[simp] theorem State.setBus_x (s : State) (v : List BusAccess) : (s.setBus v).x = s.x := rfl
@[simp] theorem State.setBus_h (s : State) (v : List BusAccess) : (s.setBus v).h = s.h := rfl
@[simp] theorem State.setBus_sp (s : State) (v : List BusAccess) : (s.setBus v).sp = s.sp := rfl
@[simp] theorem State.setBus_pc (s : State) (v : List BusAccess) : (s.setBus v).pc = s.pc := rfl
@[simp] theorem State.setBus_ccr (s : State) (v : List BusAccess) : (s.setBus v).ccr = s.ccr := rfl
@[simp] theorem State.setBus_ibuf (s : State) (v : List BusAccess) : (s.setBus v).ibuf = s.ibuf := rfl
@[simp] theorem State.setBus_run (s : State) (v : List BusAccess) : (s.setBus v).run = s.run := rfl
@[simp] theorem State.setBus_inhibit (s : State) (v : List BusAccess) : (s.setBus v).inhibit = s.inhibit := rfl
@[simp] theorem State.setBus_mem (s : State) (v : List BusAccess) : (s.setBus v).mem = s.mem := rfl
@[simp] theorem State.setBus_io (s : State) (v : List BusAccess) : (s.setBus v).io = s.io := rfl
@[simp] theorem State.setBus_inputs (s : State) (v : List BusAccess) : (s.setBus v).inputs = s.inputs := rfl
@[simp] theorem State.setBus_schedule (s : State) (v : List BusAccess) : (s.setBus v).schedule = s.schedule := rfl
@[simp] theorem State.setBus_params (s : State) (v : List BusAccess) : (s.setBus v).params = s.params := rfl
@[simp] theorem State.setBus_cycles (s : State) (v : List BusAccess) : (s.setBus v).cycles = s.cycles := rfl
@[simp] theorem State.setBus_bus (s : State) (v : List BusAccess) : (s.setBus v).bus = v := rfl
@[simp] theorem State.setBus_read (s : State) (v : List BusAccess) (b : Word) : (s.setBus v).read b = s.read b := rfl
@[simp] theorem State.setBus_isRam (s : State) (v : List BusAccess) (b : Word) : (s.setBus v).isRam b = s.isRam b := rfl

end Sys2Proof.Machine
end

