-- ==== Sys2Proof/Laws/Memory.lean ====
section
/-! SUPPORT. The laws of memory: the canonical form is kept by every write, a read after a write gives the
value written, and a write leaves every other address alone. -/

namespace Sys2Proof.Machine

theorem Memory.wfFrom_mono {lo lo' : Nat} (h : lo ≤ lo') :
    ∀ {m : Memory}, Memory.wfFrom lo' m = true → Memory.wfFrom lo m = true
  | [], _ => rfl
  | (b, v) :: m, hm => by
    simp only [Memory.wfFrom, Bool.and_eq_true, decide_eq_true_eq] at hm ⊢
    exact ⟨⟨⟨by omega, hm.1.1.2⟩, hm.1.2⟩, hm.2⟩

/-- Below the lowest listed address a read gives what an unlisted address reads as. -/
theorem Memory.read_below {lo a : Nat} (ha : a < lo) :
    ∀ {m : Memory}, Memory.wfFrom lo m = true → Memory.read m a = Config.unlistedByte
  | [], _ => rfl
  | (b, v) :: m, hm => by
    simp only [Memory.wfFrom, Bool.and_eq_true, decide_eq_true_eq] at hm
    have hb : a ≠ b := by omega
    simp only [Memory.read, if_neg hb]
    exact Memory.read_below (by omega) hm.2

theorem Memory.wfFrom_cons {lo a : Nat} (hlo : lo ≤ a) (ha : a < 2 ^ 16) (v : Byte) {m : Memory}
    (hm : Memory.wfFrom (a + 1) m = true) : Memory.wfFrom lo (Memory.cons a v m) = true := by
  unfold Memory.cons
  split
  · exact Memory.wfFrom_mono (by omega) hm
  · rename_i hv
    simp only [Memory.wfFrom, Bool.and_eq_true, decide_eq_true_eq, bne_iff_ne, ne_eq]
    exact ⟨⟨⟨hlo, ha⟩, hv⟩, hm⟩

theorem Memory.wfFrom_write {a : Nat} (ha : a < 2 ^ 16) (v : Byte) :
    ∀ {m : Memory} {lo : Nat}, lo ≤ a → Memory.wfFrom lo m = true →
      Memory.wfFrom lo (Memory.write m a v) = true
  | [], lo, hlo, _ => Memory.wfFrom_cons hlo ha v rfl
  | (b, w) :: m, lo, hlo, hm => by
    have hm' := hm
    simp only [Memory.wfFrom, Bool.and_eq_true, decide_eq_true_eq] at hm
    simp only [Memory.write]
    split
    · rename_i hab
      refine Memory.wfFrom_cons hlo ha v ?_
      simp only [Memory.wfFrom, Bool.and_eq_true, decide_eq_true_eq]
      exact ⟨⟨⟨by omega, hm.1.1.2⟩, hm.1.2⟩, hm.2⟩
    · split
      · rename_i hab
        subst hab
        exact Memory.wfFrom_cons hlo ha v hm.2
      · simp only [Memory.wfFrom, Bool.and_eq_true, decide_eq_true_eq]
        exact ⟨hm.1, Memory.wfFrom_write ha v (by omega) hm.2⟩

/-- Every memory operation keeps the canonical form: `Memory.write` is the only one. -/
theorem Memory.wf_write {m : Memory} (hm : m.wf = true) {a : Nat} (ha : a < 2 ^ 16) (v : Byte) :
    (m.write a v).wf = true :=
  Memory.wfFrom_write ha v (Nat.zero_le a) hm

/-- The memory of `State.reset` has the canonical form. -/
theorem State.reset_mem_wf : State.reset.mem.wf = true := rfl

theorem Memory.read_cons_other {a b : Nat} (h : b ≠ a) (v : Byte) (m : Memory) :
    (Memory.cons a v m).read b = m.read b := by
  unfold Memory.cons
  split
  · rfl
  · simp only [Memory.read, if_neg h]

/-- A write leaves every other address alone, in any list of cells. -/
theorem Memory.read_write_other {a b : Nat} (h : b ≠ a) (v : Byte) :
    ∀ m : Memory, (m.write a v).read b = m.read b
  | [] => Memory.read_cons_other h v []
  | (c, w) :: m => by
    simp only [Memory.write]
    split
    · exact Memory.read_cons_other h v _
    · split
      · rename_i hac
        subst hac
        rw [Memory.read_cons_other h]
        simp only [Memory.read, if_neg h]
      · simp only [Memory.read, Memory.read_write_other h v m]

theorem Memory.read_cons_same {a : Nat} (v : Byte) {m : Memory}
    (hm : Memory.read m a = Config.unlistedByte) : (Memory.cons a v m).read a = v := by
  unfold Memory.cons
  split
  · rename_i hv
    rw [hm, hv]
  · simp only [Memory.read, if_true]

theorem Memory.read_writeFrom_same {a : Nat} (v : Byte) :
    ∀ {m : Memory} {lo : Nat}, Memory.wfFrom lo m = true → (m.write a v).read a = v
  | [], _, _ => Memory.read_cons_same v rfl
  | (b, w) :: m, lo, hm => by
    have hm' := hm
    simp only [Memory.wfFrom, Bool.and_eq_true, decide_eq_true_eq] at hm
    simp only [Memory.write]
    split
    · rename_i hab
      refine Memory.read_cons_same v ?_
      have hne : a ≠ b := by omega
      simp only [Memory.read, if_neg hne]
      exact Memory.read_below (by omega) hm.2
    · split
      · rename_i hab
        subst hab
        exact Memory.read_cons_same v (Memory.read_below (by omega) hm.2)
      · rename_i hab
        simp only [Memory.read, if_neg hab]
        exact Memory.read_writeFrom_same v hm.2

theorem Memory.wfFrom_tabulate (f : Nat → Byte) :
    ∀ (n lo : Nat), lo + n ≤ 2 ^ 16 → Memory.wfFrom lo (Memory.tabulate f lo n) = true
  | 0, _, _ => rfl
  | n + 1, lo, h =>
    Memory.wfFrom_cons (Nat.le_refl lo) (by omega) (f lo) (Memory.wfFrom_tabulate f n (lo + 1) (by omega))

theorem Memory.read_tabulateFrom (f : Nat → Byte) {a : Nat} :
    ∀ (n lo : Nat), lo + n ≤ 2 ^ 16 → lo ≤ a → a < lo + n → (Memory.tabulate f lo n).read a = f a
  | 0, _, _, h1, h2 => by omega
  | n + 1, lo, h, h1, h2 => by
    have hwf := Memory.wfFrom_tabulate f n (lo + 1) (by omega)
    simp only [Memory.tabulate]
    by_cases ha : a = lo
    · subst ha
      exact Memory.read_cons_same _ (Memory.read_below (by omega) hwf)
    · rw [Memory.read_cons_other ha]
      exact Memory.read_tabulateFrom f n (lo + 1) (by omega) (by omega) (by omega)

/-- A memory given by its bytes has the canonical form. -/
theorem Memory.wf_tabulate (f : Nat → Byte) : (Memory.tabulate f 0 (2 ^ 16)).wf = true :=
  Memory.wfFrom_tabulate f (2 ^ 16) 0 (by omega)

/-- A memory given by its bytes reads as them. -/
theorem Memory.read_tabulate (f : Nat → Byte) (a : Word) :
    (Memory.tabulate f 0 (2 ^ 16)).read a.toNat = f a.toNat :=
  Memory.read_tabulateFrom f (2 ^ 16) 0 (by omega) (Nat.zero_le _) (by have := a.isLt; omega)

/-- A read of the address just written gives the value written. -/
theorem Memory.read_write_same {m : Memory} (hm : m.wf = true) (a : Nat) (v : Byte) :
    (m.write a v).read a = v :=
  Memory.read_writeFrom_same v hm

end Sys2Proof.Machine
end

