-- ==== Sys2Proof/Laws/Bus.lean ====
section
/-! SUPPORT. The bus, cycle by cycle: what a store does to memory, what one access leaves and what it changes,
and that a sequence of accesses is coherent (20 R69). -/

namespace Sys2Proof.Machine

open Sys2Proof.Safety

/-! ### `write`: memory only -/

@[simp] theorem State.write_a (s : State) (b : Word) (v : Byte) : (s.write b v).a = s.a := by
  unfold State.write; split <;> rfl
@[simp] theorem State.write_x (s : State) (b : Word) (v : Byte) : (s.write b v).x = s.x := by
  unfold State.write; split <;> rfl
@[simp] theorem State.write_h (s : State) (b : Word) (v : Byte) : (s.write b v).h = s.h := by
  unfold State.write; split <;> rfl
@[simp] theorem State.write_sp (s : State) (b : Word) (v : Byte) : (s.write b v).sp = s.sp := by
  unfold State.write; split <;> rfl
@[simp] theorem State.write_pc (s : State) (b : Word) (v : Byte) : (s.write b v).pc = s.pc := by
  unfold State.write; split <;> rfl
@[simp] theorem State.write_ccr (s : State) (b : Word) (v : Byte) : (s.write b v).ccr = s.ccr := by
  unfold State.write; split <;> rfl
@[simp] theorem State.write_ibuf (s : State) (b : Word) (v : Byte) : (s.write b v).ibuf = s.ibuf := by
  unfold State.write; split <;> rfl
@[simp] theorem State.write_run (s : State) (b : Word) (v : Byte) : (s.write b v).run = s.run := by
  unfold State.write; split <;> rfl
@[simp] theorem State.write_inhibit (s : State) (b : Word) (v : Byte) : (s.write b v).inhibit = s.inhibit := by
  unfold State.write; split <;> rfl
@[simp] theorem State.write_inputs (s : State) (b : Word) (v : Byte) : (s.write b v).inputs = s.inputs := by
  unfold State.write; split <;> rfl
@[simp] theorem State.write_schedule (s : State) (b : Word) (v : Byte) : (s.write b v).schedule = s.schedule := by
  unfold State.write; split <;> rfl
@[simp] theorem State.write_params (s : State) (b : Word) (v : Byte) : (s.write b v).params = s.params := by
  unfold State.write; split <;> rfl
@[simp] theorem State.write_io (s : State) (b : Word) (v : Byte) : (s.write b v).io = s.io := by
  unfold State.write; split <;> rfl
@[simp] theorem State.write_cycles (s : State) (b : Word) (v : Byte) : (s.write b v).cycles = s.cycles := by
  unfold State.write; split <;> rfl
@[simp] theorem State.write_bus (s : State) (b : Word) (v : Byte) : (s.write b v).bus = s.bus := by
  unfold State.write; split <;> rfl
@[simp] theorem State.write_isRam (s : State) (b : Word) (v : Byte) (q : Word) : (s.write b v).isRam q = s.isRam q := by
  simp [State.isRam]

/-- A store changes no other address. -/
theorem State.write_read_other (s : State) {b c : Word} (h : c ≠ b) (v : Byte) :
    (s.write b v).read c = s.read c := by
  unfold State.write
  split
  · have hn : c.toNat ≠ b.toNat := fun he => h (BitVec.eq_of_toNat_eq he)
    simp only [State.read, State.setMem_params, State.setMem_cycles, State.setMem_io, State.setMem_mem,
      Memory.read_write_other hn]
  · rfl

/-- RAM reads as memory has it. -/
theorem State.read_ram (s : State) {b : Word} (hr : s.isRam b = true) : s.read b = s.mem.read b.toNat := by
  have hk : regionKindAt s.params.memMap b = none := by simpa [State.isRam] using hr
  simp [State.read, hk]

/-- RAM and ROM read as memory has them. -/
theorem State.read_held (s : State) {b : Word} (hk : regionKindAt s.params.memMap b ∈ [none, some .rom]) :
    s.read b = s.mem.read b.toNat := by
  rcases List.mem_pair.mp hk with h | h <;> simp [State.read, h]

/-- A store to RAM is read back. -/
theorem State.write_read_same (s : State) (hm : s.mem.wf = true) {b : Word} (hr : s.isRam b = true)
    (v : Byte) : (s.write b v).read b = v := by
  rw [State.read_ram _ (by simpa using hr)]
  simp [State.write, hr, Memory.read_write_same hm]

/-- A store to anything but RAM is discarded. -/
theorem State.write_not_ram (s : State) {b : Word} (hr : s.isRam b = false) (v : Byte) :
    s.write b v = s := by
  simp [State.write, hr]

/-- A store, read back anywhere. -/
theorem State.write_read (s : State) (hm : s.mem.wf = true) (b : Word) (v : Byte) (c : Word) :
    (s.write b v).read c = if c = b ∧ s.isRam b = true then v else s.read c := by
  by_cases hc : c = b
  · subst hc
    cases hr : s.isRam c
    · simp [State.write_not_ram s hr]
    · simp [State.write_read_same s hm hr]
  · simp [hc, State.write_read_other s hc]

/-- A store, in memory itself. -/
theorem State.write_memRead (s : State) (hm : s.mem.wf = true) (b : Word) (v : Byte) (c : Word) :
    (s.write b v).mem.read c.toNat = if c = b ∧ s.isRam b = true then v else s.mem.read c.toNat := by
  unfold State.write
  by_cases hr : s.isRam b = true
  · simp only [hr, if_true, State.setMem_mem, and_true]
    by_cases hc : c = b
    · simp [hc, Memory.read_write_same hm]
    · have hn : c.toNat ≠ b.toNat := fun he => hc (BitVec.eq_of_toNat_eq he)
      simp [hc, Memory.read_write_other hn]
  · simp [hr]

/-- A store keeps the canonical form of memory. -/
theorem State.write_wf (s : State) (hm : s.mem.wf = true) (b : Word) (v : Byte) :
    (s.write b v).mem.wf = true := by
  unfold State.write
  split
  · exact Memory.wf_write hm b.isLt v
  · exact hm

/-! ### `stored` -/

@[simp] theorem BusAccess.stored_p (a : Word) (d : Byte) : (BusAccess.mk .p a d).stored = none := rfl
@[simp] theorem BusAccess.stored_r (a : Word) (d : Byte) : (BusAccess.mk .r a d).stored = none := rfl
@[simp] theorem BusAccess.stored_u (a : Word) (d : Byte) : (BusAccess.mk .u a d).stored = none := rfl
@[simp] theorem BusAccess.stored_v (a : Word) (d : Byte) : (BusAccess.mk .v a d).stored = none := rfl
@[simp] theorem BusAccess.stored_d (a : Word) (d : Byte) : (BusAccess.mk .d a d).stored = none := rfl
@[simp] theorem BusAccess.stored_w (a : Word) (d : Byte) : (BusAccess.mk .w a d).stored = some d := rfl
@[simp] theorem BusAccess.stored_s (a : Word) (d : Byte) : (BusAccess.mk .s a d).stored = some d := rfl

/-- The `w` and `s` cycles store, and no others (R61 to R67). -/
theorem BusAccess.stored_isSome (c : BusAccess) : c.stored.isSome = true ↔ c.kind = .w ∨ c.kind = .s := by
  obtain ⟨k, a, d⟩ := c
  cases k <;> simp

/-! ### `access`: one cycle -/

@[simp] theorem State.access_a (s : State) (c : BusAccess) : (s.access c).a = s.a := by
  unfold State.access; cases c.stored <;> simp
@[simp] theorem State.access_x (s : State) (c : BusAccess) : (s.access c).x = s.x := by
  unfold State.access; cases c.stored <;> simp
@[simp] theorem State.access_h (s : State) (c : BusAccess) : (s.access c).h = s.h := by
  unfold State.access; cases c.stored <;> simp
@[simp] theorem State.access_sp (s : State) (c : BusAccess) : (s.access c).sp = s.sp := by
  unfold State.access; cases c.stored <;> simp
@[simp] theorem State.access_pc (s : State) (c : BusAccess) : (s.access c).pc = s.pc := by
  unfold State.access; cases c.stored <;> simp
@[simp] theorem State.access_ccr (s : State) (c : BusAccess) : (s.access c).ccr = s.ccr := by
  unfold State.access; cases c.stored <;> simp
@[simp] theorem State.access_ibuf (s : State) (c : BusAccess) : (s.access c).ibuf = s.ibuf := by
  unfold State.access; cases c.stored <;> simp
@[simp] theorem State.access_run (s : State) (c : BusAccess) : (s.access c).run = s.run := by
  unfold State.access; cases c.stored <;> simp
@[simp] theorem State.access_inhibit (s : State) (c : BusAccess) : (s.access c).inhibit = s.inhibit := by
  unfold State.access; cases c.stored <;> simp
@[simp] theorem State.access_inputs (s : State) (c : BusAccess) : (s.access c).inputs = s.inputs := by
  unfold State.access; cases c.stored <;> simp
@[simp] theorem State.access_schedule (s : State) (c : BusAccess) : (s.access c).schedule = s.schedule := by
  unfold State.access; cases c.stored <;> simp
@[simp] theorem State.access_params (s : State) (c : BusAccess) : (s.access c).params = s.params := by
  unfold State.access; cases c.stored <;> simp
@[simp] theorem State.access_isRam (s : State) (c : BusAccess) (q : Word) : (s.access c).isRam q = s.isRam q := by
  simp [State.isRam]

@[simp] theorem State.access_cycles (s : State) (c : BusAccess) : (s.access c).cycles = s.cycles + 1 := rfl
@[simp] theorem State.access_bus (s : State) (c : BusAccess) : (s.access c).bus = s.bus ++ [c] := rfl

/-- The device at the address of a cycle has seen it (R51, R69 (d)). -/
theorem State.access_io (s : State) (c : BusAccess) : (s.access c).io = devicesSeen s [c] := by
  cases h : regionKindAt s.params.memMap c.addr == some .device <;>
    simp [State.access, devicesSeen, List.filter, h]

/-- A cycle changes memory only where it stores into RAM. -/
theorem State.access_mem (s : State) (c : BusAccess) : (s.access c).mem = memoryAfter s [c] := by
  unfold State.access memoryAfter
  cases h : c.stored with
  | none => simp [h]
  | some v => simp only [State.setBus_mem, State.setCycles_mem, State.setIo_mem, List.foldl, h, State.write]
              split <;> rfl

/-- A cycle that stores nothing leaves memory. -/
theorem State.access_mem_of_read (s : State) {c : BusAccess} (h : c.stored = none) :
    (s.access c).mem = s.mem := by
  simp [State.access, h]

/-- A cycle that stores, in memory. -/
theorem State.access_mem_of_store (s : State) {c : BusAccess} {v : Byte} (h : c.stored = some v) :
    (s.access c).mem = (s.write c.addr v).mem := by
  simp [State.access, h]

/-- A cycle keeps the canonical form of memory. -/
theorem State.access_wf (s : State) (hm : s.mem.wf = true) (c : BusAccess) : (s.access c).mem.wf = true := by
  cases h : c.stored with
  | none => rw [State.access_mem_of_read s h]; exact hm
  | some v => rw [State.access_mem_of_store s h]; exact State.write_wf s hm c.addr v

/-- Memory where there is no RAM stays (92 D12; log entry 13). -/
theorem State.access_memRead_not_ram (s : State) (c : BusAccess) {b : Word} (hr : s.isRam b = false) :
    (s.access c).mem.read b.toNat = s.mem.read b.toNat := by
  cases h : c.stored with
  | none => rw [State.access_mem_of_read s h]
  | some v =>
    rw [State.access_mem_of_store s h]
    unfold State.write
    split
    · rename_i hc
      rw [State.setMem_mem]
      have hn : b.toNat ≠ c.addr.toNat := fun he => by
        rw [BitVec.eq_of_toNat_eq he, hc] at hr; exact nomatch hr
      exact Memory.read_write_other hn _ _
    · rfl

/-! ### `load`: a cycle that reads -/

@[simp] theorem State.load_a (s : State) (k : BusCycle) (a : Word) : (s.load k a).a = s.a := by
  simp [State.load]
@[simp] theorem State.load_x (s : State) (k : BusCycle) (a : Word) : (s.load k a).x = s.x := by
  simp [State.load]
@[simp] theorem State.load_h (s : State) (k : BusCycle) (a : Word) : (s.load k a).h = s.h := by
  simp [State.load]
@[simp] theorem State.load_sp (s : State) (k : BusCycle) (a : Word) : (s.load k a).sp = s.sp := by
  simp [State.load]
@[simp] theorem State.load_pc (s : State) (k : BusCycle) (a : Word) : (s.load k a).pc = s.pc := by
  simp [State.load]
@[simp] theorem State.load_ccr (s : State) (k : BusCycle) (a : Word) : (s.load k a).ccr = s.ccr := by
  simp [State.load]
@[simp] theorem State.load_ibuf (s : State) (k : BusCycle) (a : Word) : (s.load k a).ibuf = s.ibuf := by
  simp [State.load]
@[simp] theorem State.load_run (s : State) (k : BusCycle) (a : Word) : (s.load k a).run = s.run := by
  simp [State.load]
@[simp] theorem State.load_inhibit (s : State) (k : BusCycle) (a : Word) : (s.load k a).inhibit = s.inhibit := by
  simp [State.load]
@[simp] theorem State.load_inputs (s : State) (k : BusCycle) (a : Word) : (s.load k a).inputs = s.inputs := by
  simp [State.load]
@[simp] theorem State.load_schedule (s : State) (k : BusCycle) (a : Word) : (s.load k a).schedule = s.schedule := by
  simp [State.load]
@[simp] theorem State.load_params (s : State) (k : BusCycle) (a : Word) : (s.load k a).params = s.params := by
  simp [State.load]
@[simp] theorem State.load_isRam (s : State) (k : BusCycle) (a : Word) (q : Word) : (s.load k a).isRam q = s.isRam q := by
  simp [State.isRam]

@[simp] theorem State.load_cycles (s : State) (k : BusCycle) (a : Word) :
    (s.load k a).cycles = s.cycles + 1 := rfl
@[simp] theorem State.load_bus (s : State) (k : BusCycle) (a : Word) :
    (s.load k a).bus = s.bus ++ [⟨k, a, s.read a⟩] := rfl
@[simp] theorem State.load_mem (s : State) {k : BusCycle} (hw : k ≠ .w) (hs : k ≠ .s) (a : Word) :
    (s.load k a).mem = s.mem := by
  refine State.access_mem_of_read s ?_
  cases k <;> first | rfl | exact absurd rfl hw | exact absurd rfl hs

/-! ### `store`: a cycle that stores -/

@[simp] theorem State.store_a (s : State) (k : BusCycle) (a : Word) (v : Byte) : (s.store k a v).a = s.a := by
  simp [State.store]
@[simp] theorem State.store_x (s : State) (k : BusCycle) (a : Word) (v : Byte) : (s.store k a v).x = s.x := by
  simp [State.store]
@[simp] theorem State.store_h (s : State) (k : BusCycle) (a : Word) (v : Byte) : (s.store k a v).h = s.h := by
  simp [State.store]
@[simp] theorem State.store_sp (s : State) (k : BusCycle) (a : Word) (v : Byte) : (s.store k a v).sp = s.sp := by
  simp [State.store]
@[simp] theorem State.store_pc (s : State) (k : BusCycle) (a : Word) (v : Byte) : (s.store k a v).pc = s.pc := by
  simp [State.store]
@[simp] theorem State.store_ccr (s : State) (k : BusCycle) (a : Word) (v : Byte) : (s.store k a v).ccr = s.ccr := by
  simp [State.store]
@[simp] theorem State.store_ibuf (s : State) (k : BusCycle) (a : Word) (v : Byte) : (s.store k a v).ibuf = s.ibuf := by
  simp [State.store]
@[simp] theorem State.store_run (s : State) (k : BusCycle) (a : Word) (v : Byte) : (s.store k a v).run = s.run := by
  simp [State.store]
@[simp] theorem State.store_inhibit (s : State) (k : BusCycle) (a : Word) (v : Byte) : (s.store k a v).inhibit = s.inhibit := by
  simp [State.store]
@[simp] theorem State.store_inputs (s : State) (k : BusCycle) (a : Word) (v : Byte) : (s.store k a v).inputs = s.inputs := by
  simp [State.store]
@[simp] theorem State.store_schedule (s : State) (k : BusCycle) (a : Word) (v : Byte) : (s.store k a v).schedule = s.schedule := by
  simp [State.store]
@[simp] theorem State.store_params (s : State) (k : BusCycle) (a : Word) (v : Byte) : (s.store k a v).params = s.params := by
  simp [State.store]
@[simp] theorem State.store_isRam (s : State) (k : BusCycle) (a : Word) (v : Byte) (q : Word) : (s.store k a v).isRam q = s.isRam q := by
  simp [State.isRam]

@[simp] theorem State.store_cycles (s : State) (k : BusCycle) (a : Word) (v : Byte) :
    (s.store k a v).cycles = s.cycles + 1 := rfl
@[simp] theorem State.store_bus (s : State) (k : BusCycle) (a : Word) (v : Byte) :
    (s.store k a v).bus = s.bus ++ [⟨k, a, v⟩] := rfl
theorem State.store_mem (s : State) {k : BusCycle} (h : k = .w ∨ k = .s) (a : Word) (v : Byte) :
    (s.store k a v).mem = (s.write a v).mem := by
  rcases h with rfl | rfl <;> exact State.access_mem_of_store s rfl

/-- A byte after a cycle that stores (R69). -/
theorem State.store_memRead (s : State) (hm : s.mem.wf = true) {k : BusCycle} (h : k = .w ∨ k = .s) (a : Word)
    (v : Byte) (c : Word) : (s.store k a v).mem.read c.toNat =
      if c = a ∧ s.isRam a = true then v else s.mem.read c.toNat := by
  rw [State.store_mem s h, State.write_memRead s hm]

theorem State.store_wf (s : State) (hm : s.mem.wf = true) (k : BusCycle) (a : Word) (v : Byte) :
    (s.store k a v).mem.wf = true := State.access_wf s hm _

/-! ### `dummy` -/

@[simp] theorem State.dummy_a (s : State) (a : Word) : (s.dummy a).a = s.a := by
  simp [State.dummy]
@[simp] theorem State.dummy_x (s : State) (a : Word) : (s.dummy a).x = s.x := by
  simp [State.dummy]
@[simp] theorem State.dummy_h (s : State) (a : Word) : (s.dummy a).h = s.h := by
  simp [State.dummy]
@[simp] theorem State.dummy_sp (s : State) (a : Word) : (s.dummy a).sp = s.sp := by
  simp [State.dummy]
@[simp] theorem State.dummy_pc (s : State) (a : Word) : (s.dummy a).pc = s.pc := by
  simp [State.dummy]
@[simp] theorem State.dummy_ccr (s : State) (a : Word) : (s.dummy a).ccr = s.ccr := by
  simp [State.dummy]
@[simp] theorem State.dummy_ibuf (s : State) (a : Word) : (s.dummy a).ibuf = s.ibuf := by
  simp [State.dummy]
@[simp] theorem State.dummy_run (s : State) (a : Word) : (s.dummy a).run = s.run := by
  simp [State.dummy]
@[simp] theorem State.dummy_inhibit (s : State) (a : Word) : (s.dummy a).inhibit = s.inhibit := by
  simp [State.dummy]
@[simp] theorem State.dummy_inputs (s : State) (a : Word) : (s.dummy a).inputs = s.inputs := by
  simp [State.dummy]
@[simp] theorem State.dummy_schedule (s : State) (a : Word) : (s.dummy a).schedule = s.schedule := by
  simp [State.dummy]
@[simp] theorem State.dummy_params (s : State) (a : Word) : (s.dummy a).params = s.params := by
  simp [State.dummy]
@[simp] theorem State.dummy_isRam (s : State) (a : Word) (q : Word) : (s.dummy a).isRam q = s.isRam q := by
  simp [State.isRam]
@[simp] theorem State.dummy_cycles (s : State) (a : Word) : (s.dummy a).cycles = s.cycles + 1 := by
  simp [State.dummy]
@[simp] theorem State.dummy_mem (s : State) (a : Word) : (s.dummy a).mem = s.mem := by
  simp [State.dummy]

/-! ### `fetchByte` -/

@[simp] theorem State.fetchByte_a (s : State) (n : Nat) : (s.fetchByte n).a = s.a := by
  simp [State.fetchByte]
@[simp] theorem State.fetchByte_x (s : State) (n : Nat) : (s.fetchByte n).x = s.x := by
  simp [State.fetchByte]
@[simp] theorem State.fetchByte_h (s : State) (n : Nat) : (s.fetchByte n).h = s.h := by
  simp [State.fetchByte]
@[simp] theorem State.fetchByte_sp (s : State) (n : Nat) : (s.fetchByte n).sp = s.sp := by
  simp [State.fetchByte]
@[simp] theorem State.fetchByte_pc (s : State) (n : Nat) : (s.fetchByte n).pc = s.pc := by
  simp [State.fetchByte]
@[simp] theorem State.fetchByte_ccr (s : State) (n : Nat) : (s.fetchByte n).ccr = s.ccr := by
  simp [State.fetchByte]
@[simp] theorem State.fetchByte_ibuf (s : State) (n : Nat) : (s.fetchByte n).ibuf = s.ibuf := by
  simp [State.fetchByte]
@[simp] theorem State.fetchByte_run (s : State) (n : Nat) : (s.fetchByte n).run = s.run := by
  simp [State.fetchByte]
@[simp] theorem State.fetchByte_inhibit (s : State) (n : Nat) : (s.fetchByte n).inhibit = s.inhibit := by
  simp [State.fetchByte]
@[simp] theorem State.fetchByte_inputs (s : State) (n : Nat) : (s.fetchByte n).inputs = s.inputs := by
  simp [State.fetchByte]
@[simp] theorem State.fetchByte_schedule (s : State) (n : Nat) : (s.fetchByte n).schedule = s.schedule := by
  simp [State.fetchByte]
@[simp] theorem State.fetchByte_params (s : State) (n : Nat) : (s.fetchByte n).params = s.params := by
  simp [State.fetchByte]
@[simp] theorem State.fetchByte_isRam (s : State) (n : Nat) (q : Word) : (s.fetchByte n).isRam q = s.isRam q := by
  simp [State.isRam]
@[simp] theorem State.fetchByte_cycles (s : State) (n : Nat) : (s.fetchByte n).cycles = s.cycles + 1 := by
  simp [State.fetchByte]
@[simp] theorem State.fetchByte_mem (s : State) (n : Nat) : (s.fetchByte n).mem = s.mem := by
  simp [State.fetchByte]

/-! ### `fetch` -/

@[simp] theorem State.fetch_a (s : State) : ∀ n : Nat, (s.fetch n).a = s.a
  | 0 => rfl
  | n + 1 => by simp [State.fetch, State.fetch_a s n]
@[simp] theorem State.fetch_x (s : State) : ∀ n : Nat, (s.fetch n).x = s.x
  | 0 => rfl
  | n + 1 => by simp [State.fetch, State.fetch_x s n]
@[simp] theorem State.fetch_h (s : State) : ∀ n : Nat, (s.fetch n).h = s.h
  | 0 => rfl
  | n + 1 => by simp [State.fetch, State.fetch_h s n]
@[simp] theorem State.fetch_sp (s : State) : ∀ n : Nat, (s.fetch n).sp = s.sp
  | 0 => rfl
  | n + 1 => by simp [State.fetch, State.fetch_sp s n]
@[simp] theorem State.fetch_pc (s : State) : ∀ n : Nat, (s.fetch n).pc = s.pc
  | 0 => rfl
  | n + 1 => by simp [State.fetch, State.fetch_pc s n]
@[simp] theorem State.fetch_ccr (s : State) : ∀ n : Nat, (s.fetch n).ccr = s.ccr
  | 0 => rfl
  | n + 1 => by simp [State.fetch, State.fetch_ccr s n]
@[simp] theorem State.fetch_ibuf (s : State) : ∀ n : Nat, (s.fetch n).ibuf = s.ibuf
  | 0 => rfl
  | n + 1 => by simp [State.fetch, State.fetch_ibuf s n]
@[simp] theorem State.fetch_run (s : State) : ∀ n : Nat, (s.fetch n).run = s.run
  | 0 => rfl
  | n + 1 => by simp [State.fetch, State.fetch_run s n]
@[simp] theorem State.fetch_inhibit (s : State) : ∀ n : Nat, (s.fetch n).inhibit = s.inhibit
  | 0 => rfl
  | n + 1 => by simp [State.fetch, State.fetch_inhibit s n]
@[simp] theorem State.fetch_inputs (s : State) : ∀ n : Nat, (s.fetch n).inputs = s.inputs
  | 0 => rfl
  | n + 1 => by simp [State.fetch, State.fetch_inputs s n]
@[simp] theorem State.fetch_schedule (s : State) : ∀ n : Nat, (s.fetch n).schedule = s.schedule
  | 0 => rfl
  | n + 1 => by simp [State.fetch, State.fetch_schedule s n]
@[simp] theorem State.fetch_params (s : State) : ∀ n : Nat, (s.fetch n).params = s.params
  | 0 => rfl
  | n + 1 => by simp [State.fetch, State.fetch_params s n]
@[simp] theorem State.fetch_mem (s : State) : ∀ n : Nat, (s.fetch n).mem = s.mem
  | 0 => rfl
  | n + 1 => by simp [State.fetch, State.fetch_mem s n]
@[simp] theorem State.fetch_cycles (s : State) : ∀ n : Nat, (s.fetch n).cycles = s.cycles + n
  | 0 => rfl
  | n + 1 => by simp [State.fetch, State.fetch_cycles s n, Nat.add_assoc]
@[simp] theorem State.fetch_isRam (s : State) (n : Nat) (b : Word) : (s.fetch n).isRam b = s.isRam b := by
  simp [State.isRam]

/-! ### `dummies` -/

@[simp] theorem State.dummies_a (s : State) (a : Word) : ∀ n : Nat, (s.dummies a n).a = s.a
  | 0 => rfl
  | n + 1 => by simp [State.dummies, State.dummies_a s a n]
@[simp] theorem State.dummies_x (s : State) (a : Word) : ∀ n : Nat, (s.dummies a n).x = s.x
  | 0 => rfl
  | n + 1 => by simp [State.dummies, State.dummies_x s a n]
@[simp] theorem State.dummies_h (s : State) (a : Word) : ∀ n : Nat, (s.dummies a n).h = s.h
  | 0 => rfl
  | n + 1 => by simp [State.dummies, State.dummies_h s a n]
@[simp] theorem State.dummies_sp (s : State) (a : Word) : ∀ n : Nat, (s.dummies a n).sp = s.sp
  | 0 => rfl
  | n + 1 => by simp [State.dummies, State.dummies_sp s a n]
@[simp] theorem State.dummies_pc (s : State) (a : Word) : ∀ n : Nat, (s.dummies a n).pc = s.pc
  | 0 => rfl
  | n + 1 => by simp [State.dummies, State.dummies_pc s a n]
@[simp] theorem State.dummies_ccr (s : State) (a : Word) : ∀ n : Nat, (s.dummies a n).ccr = s.ccr
  | 0 => rfl
  | n + 1 => by simp [State.dummies, State.dummies_ccr s a n]
@[simp] theorem State.dummies_ibuf (s : State) (a : Word) : ∀ n : Nat, (s.dummies a n).ibuf = s.ibuf
  | 0 => rfl
  | n + 1 => by simp [State.dummies, State.dummies_ibuf s a n]
@[simp] theorem State.dummies_run (s : State) (a : Word) : ∀ n : Nat, (s.dummies a n).run = s.run
  | 0 => rfl
  | n + 1 => by simp [State.dummies, State.dummies_run s a n]
@[simp] theorem State.dummies_inhibit (s : State) (a : Word) : ∀ n : Nat, (s.dummies a n).inhibit = s.inhibit
  | 0 => rfl
  | n + 1 => by simp [State.dummies, State.dummies_inhibit s a n]
@[simp] theorem State.dummies_inputs (s : State) (a : Word) : ∀ n : Nat, (s.dummies a n).inputs = s.inputs
  | 0 => rfl
  | n + 1 => by simp [State.dummies, State.dummies_inputs s a n]
@[simp] theorem State.dummies_schedule (s : State) (a : Word) : ∀ n : Nat, (s.dummies a n).schedule = s.schedule
  | 0 => rfl
  | n + 1 => by simp [State.dummies, State.dummies_schedule s a n]
@[simp] theorem State.dummies_params (s : State) (a : Word) : ∀ n : Nat, (s.dummies a n).params = s.params
  | 0 => rfl
  | n + 1 => by simp [State.dummies, State.dummies_params s a n]
@[simp] theorem State.dummies_mem (s : State) (a : Word) : ∀ n : Nat, (s.dummies a n).mem = s.mem
  | 0 => rfl
  | n + 1 => by simp [State.dummies, State.dummies_mem s a n]
@[simp] theorem State.dummies_cycles (s : State) (a : Word) : ∀ n : Nat, (s.dummies a n).cycles = s.cycles + n
  | 0 => rfl
  | n + 1 => by simp [State.dummies, State.dummies_cycles s a n, Nat.add_assoc]
@[simp] theorem State.dummies_isRam (s : State) (a : Word) (n : Nat) (b : Word) : (s.dummies a n).isRam b = s.isRam b := by
  simp [State.isRam]

/-! ### `fetchThenDummy` -/

@[simp] theorem State.fetchThenDummy_a (s : State) (n : Nat) : (s.fetchThenDummy n).a = s.a := by
  simp [State.fetchThenDummy]
@[simp] theorem State.fetchThenDummy_x (s : State) (n : Nat) : (s.fetchThenDummy n).x = s.x := by
  simp [State.fetchThenDummy]
@[simp] theorem State.fetchThenDummy_h (s : State) (n : Nat) : (s.fetchThenDummy n).h = s.h := by
  simp [State.fetchThenDummy]
@[simp] theorem State.fetchThenDummy_sp (s : State) (n : Nat) : (s.fetchThenDummy n).sp = s.sp := by
  simp [State.fetchThenDummy]
@[simp] theorem State.fetchThenDummy_pc (s : State) (n : Nat) : (s.fetchThenDummy n).pc = s.pc := by
  simp [State.fetchThenDummy]
@[simp] theorem State.fetchThenDummy_ccr (s : State) (n : Nat) : (s.fetchThenDummy n).ccr = s.ccr := by
  simp [State.fetchThenDummy]
@[simp] theorem State.fetchThenDummy_ibuf (s : State) (n : Nat) : (s.fetchThenDummy n).ibuf = s.ibuf := by
  simp [State.fetchThenDummy]
@[simp] theorem State.fetchThenDummy_run (s : State) (n : Nat) : (s.fetchThenDummy n).run = s.run := by
  simp [State.fetchThenDummy]
@[simp] theorem State.fetchThenDummy_inhibit (s : State) (n : Nat) : (s.fetchThenDummy n).inhibit = s.inhibit := by
  simp [State.fetchThenDummy]
@[simp] theorem State.fetchThenDummy_inputs (s : State) (n : Nat) : (s.fetchThenDummy n).inputs = s.inputs := by
  simp [State.fetchThenDummy]
@[simp] theorem State.fetchThenDummy_schedule (s : State) (n : Nat) : (s.fetchThenDummy n).schedule = s.schedule := by
  simp [State.fetchThenDummy]
@[simp] theorem State.fetchThenDummy_params (s : State) (n : Nat) : (s.fetchThenDummy n).params = s.params := by
  simp [State.fetchThenDummy]
@[simp] theorem State.fetchThenDummy_isRam (s : State) (n : Nat) (q : Word) : (s.fetchThenDummy n).isRam q = s.isRam q := by
  simp [State.isRam]
@[simp] theorem State.fetchThenDummy_cycles (s : State) (n : Nat) : (s.fetchThenDummy n).cycles = s.cycles + n + 1 := by
  simp [State.fetchThenDummy]
@[simp] theorem State.fetchThenDummy_mem (s : State) (n : Nat) : (s.fetchThenDummy n).mem = s.mem := by
  simp [State.fetchThenDummy]

/-! ### `loadWord` and `storeWord` -/

@[simp] theorem State.loadWord_fst (s : State) (k : BusCycle) (a : Word) :
    (s.loadWord k a).1 = wordOf (s.read a) ((s.load k a).read (a + 1#16)) := rfl
@[simp] theorem State.loadWord_snd (s : State) (k : BusCycle) (a : Word) :
    (s.loadWord k a).2 = (s.load k a).load k (a + 1#16) := rfl

/-- Two bytes stored, the high byte at the lower address (R55, R57). -/
theorem State.storeWord_memRead (s : State) (hm : s.mem.wf = true) {k : BusCycle} (h : k = .w ∨ k = .s)
    (b v c : Word) : (s.storeWord k b v).mem.read c.toNat =
      if c = b + 1#16 ∧ s.isRam (b + 1#16) = true then loByte v
      else if c = b ∧ s.isRam b = true then hiByte v else s.mem.read c.toNat := by
  unfold State.storeWord
  rw [State.store_memRead _ (State.store_wf s hm _ _ _) h, State.store_memRead s hm h]
  simp only [State.store_isRam]

theorem State.storeWord_wf (s : State) (hm : s.mem.wf = true) (k : BusCycle) (b v : Word) :
    (s.storeWord k b v).mem.wf = true :=
  State.store_wf _ (State.store_wf s hm k _ _) k _ _

/-! ### `storeWord`: the rest -/

@[simp] theorem State.storeWord_a (s : State) (k : BusCycle) (b v : Word) : (s.storeWord k b v).a = s.a := by
  simp [State.storeWord]
@[simp] theorem State.storeWord_x (s : State) (k : BusCycle) (b v : Word) : (s.storeWord k b v).x = s.x := by
  simp [State.storeWord]
@[simp] theorem State.storeWord_h (s : State) (k : BusCycle) (b v : Word) : (s.storeWord k b v).h = s.h := by
  simp [State.storeWord]
@[simp] theorem State.storeWord_sp (s : State) (k : BusCycle) (b v : Word) : (s.storeWord k b v).sp = s.sp := by
  simp [State.storeWord]
@[simp] theorem State.storeWord_pc (s : State) (k : BusCycle) (b v : Word) : (s.storeWord k b v).pc = s.pc := by
  simp [State.storeWord]
@[simp] theorem State.storeWord_ccr (s : State) (k : BusCycle) (b v : Word) : (s.storeWord k b v).ccr = s.ccr := by
  simp [State.storeWord]
@[simp] theorem State.storeWord_ibuf (s : State) (k : BusCycle) (b v : Word) : (s.storeWord k b v).ibuf = s.ibuf := by
  simp [State.storeWord]
@[simp] theorem State.storeWord_run (s : State) (k : BusCycle) (b v : Word) : (s.storeWord k b v).run = s.run := by
  simp [State.storeWord]
@[simp] theorem State.storeWord_inhibit (s : State) (k : BusCycle) (b v : Word) : (s.storeWord k b v).inhibit = s.inhibit := by
  simp [State.storeWord]
@[simp] theorem State.storeWord_inputs (s : State) (k : BusCycle) (b v : Word) : (s.storeWord k b v).inputs = s.inputs := by
  simp [State.storeWord]
@[simp] theorem State.storeWord_schedule (s : State) (k : BusCycle) (b v : Word) : (s.storeWord k b v).schedule = s.schedule := by
  simp [State.storeWord]
@[simp] theorem State.storeWord_params (s : State) (k : BusCycle) (b v : Word) : (s.storeWord k b v).params = s.params := by
  simp [State.storeWord]
@[simp] theorem State.storeWord_isRam (s : State) (k : BusCycle) (b v : Word) (q : Word) : (s.storeWord k b v).isRam q = s.isRam q := by
  simp [State.isRam]
@[simp] theorem State.storeWord_cycles (s : State) (k : BusCycle) (b v : Word) : (s.storeWord k b v).cycles = s.cycles + 2 := by
  simp [State.storeWord]

/-! ### Sequences of cycles -/

@[simp] theorem State.partWay_nil (s : State) : s.partWay [] = s := rfl
@[simp] theorem State.partWay_cons (s : State) (c : BusAccess) (bus : List BusAccess) :
    s.partWay (c :: bus) = (s.access c).partWay bus := rfl
theorem State.partWay_append (s : State) (bus bus' : List BusAccess) :
    s.partWay (bus ++ bus') = (s.partWay bus).partWay bus' := by
  simp [State.partWay, List.foldl_append]

@[simp] theorem State.partWay_a : ∀ (bus : List BusAccess) (s : State), (s.partWay bus).a = s.a
  | [], _ => rfl
  | c :: bus, s => by rw [State.partWay_cons, State.partWay_a bus, State.access_a]
@[simp] theorem State.partWay_x : ∀ (bus : List BusAccess) (s : State), (s.partWay bus).x = s.x
  | [], _ => rfl
  | c :: bus, s => by rw [State.partWay_cons, State.partWay_x bus, State.access_x]
@[simp] theorem State.partWay_h : ∀ (bus : List BusAccess) (s : State), (s.partWay bus).h = s.h
  | [], _ => rfl
  | c :: bus, s => by rw [State.partWay_cons, State.partWay_h bus, State.access_h]
@[simp] theorem State.partWay_sp : ∀ (bus : List BusAccess) (s : State), (s.partWay bus).sp = s.sp
  | [], _ => rfl
  | c :: bus, s => by rw [State.partWay_cons, State.partWay_sp bus, State.access_sp]
@[simp] theorem State.partWay_pc : ∀ (bus : List BusAccess) (s : State), (s.partWay bus).pc = s.pc
  | [], _ => rfl
  | c :: bus, s => by rw [State.partWay_cons, State.partWay_pc bus, State.access_pc]
@[simp] theorem State.partWay_ccr : ∀ (bus : List BusAccess) (s : State), (s.partWay bus).ccr = s.ccr
  | [], _ => rfl
  | c :: bus, s => by rw [State.partWay_cons, State.partWay_ccr bus, State.access_ccr]
@[simp] theorem State.partWay_ibuf : ∀ (bus : List BusAccess) (s : State), (s.partWay bus).ibuf = s.ibuf
  | [], _ => rfl
  | c :: bus, s => by rw [State.partWay_cons, State.partWay_ibuf bus, State.access_ibuf]
@[simp] theorem State.partWay_run : ∀ (bus : List BusAccess) (s : State), (s.partWay bus).run = s.run
  | [], _ => rfl
  | c :: bus, s => by rw [State.partWay_cons, State.partWay_run bus, State.access_run]
@[simp] theorem State.partWay_inhibit : ∀ (bus : List BusAccess) (s : State), (s.partWay bus).inhibit = s.inhibit
  | [], _ => rfl
  | c :: bus, s => by rw [State.partWay_cons, State.partWay_inhibit bus, State.access_inhibit]
@[simp] theorem State.partWay_inputs : ∀ (bus : List BusAccess) (s : State), (s.partWay bus).inputs = s.inputs
  | [], _ => rfl
  | c :: bus, s => by rw [State.partWay_cons, State.partWay_inputs bus, State.access_inputs]
@[simp] theorem State.partWay_schedule : ∀ (bus : List BusAccess) (s : State), (s.partWay bus).schedule = s.schedule
  | [], _ => rfl
  | c :: bus, s => by rw [State.partWay_cons, State.partWay_schedule bus, State.access_schedule]
@[simp] theorem State.partWay_params : ∀ (bus : List BusAccess) (s : State), (s.partWay bus).params = s.params
  | [], _ => rfl
  | c :: bus, s => by rw [State.partWay_cons, State.partWay_params bus, State.access_params]
@[simp] theorem State.partWay_isRam (bus : List BusAccess) (s : State) (b : Word) :
    (s.partWay bus).isRam b = s.isRam b := by
  simp [State.isRam]
@[simp] theorem State.partWay_cycles : ∀ (bus : List BusAccess) (s : State),
    (s.partWay bus).cycles = s.cycles + bus.length
  | [], _ => rfl
  | c :: bus, s => by simp [State.partWay_cycles bus, Nat.add_assoc, Nat.add_comm 1]
@[simp] theorem State.partWay_bus : ∀ (bus : List BusAccess) (s : State),
    (s.partWay bus).bus = s.bus ++ bus
  | [], s => by simp
  | c :: bus, s => by simp [State.partWay_bus bus]
theorem State.partWay_io : ∀ (bus : List BusAccess) (s : State), (s.partWay bus).io = devicesSeen s bus
  | [], s => by simp [devicesSeen]
  | c :: bus, s => by
    rw [State.partWay_cons, State.partWay_io bus]
    cases h : regionKindAt s.params.memMap c.addr == some .device <;>
      simp [devicesSeen, State.access_io, h]
theorem State.partWay_mem : ∀ (bus : List BusAccess) (s : State), (s.partWay bus).mem = memoryAfter s bus
  | [], _ => rfl
  | c :: bus, s => by
    rw [State.partWay_cons, State.partWay_mem bus]
    simp [memoryAfter, State.access_mem]
theorem State.partWay_wf : ∀ (bus : List BusAccess) (s : State), s.mem.wf = true →
    (s.partWay bus).mem.wf = true
  | [], _, hm => hm
  | c :: bus, s, hm => State.partWay_wf bus _ (State.access_wf s hm c)

/-- Coherence depends on memory, devices, count and parameters alone, on no register, input or record. -/
theorem coherent_congr {s u : State} {bus : List BusAccess} (h : Coherent s bus) (hm : u.mem = s.mem)
    (hi : u.io = s.io) (hc : u.cycles = s.cycles) (hp : u.params = s.params) : Coherent u bus := by
  intro k c hk hn
  rw [h k c hk hn]
  have e : ∀ b : List BusAccess, memoryAfter u b = memoryAfter s b := fun b => by
    simp only [memoryAfter, State.isRam, hm, hp]; rfl
  simp only [State.read, State.partWay_params, State.partWay_io, State.partWay_cycles, State.partWay_mem,
    e, devicesSeen, hi, hc, hp]

/-! ### What a sequence of cycles is

`Ran s t bus` says once what the bus of `t` has of `s`: exactly the cycles `bus`, each of which found what the
cycles before it left (R69). The registers of `t` are free. -/

/-- Two states alike but for their registers. -/
def SameBus (t u : State) : Prop :=
  t.mem = u.mem ∧ t.io = u.io ∧ t.cycles = u.cycles ∧ t.bus = u.bus ∧ t.params = u.params

/-- What is read depends on no register. -/
theorem SameBus.read {t u : State} (h : SameBus t u) (a : Word) : t.read a = u.read a := by
  obtain ⟨h1, h2, h3, -, h5⟩ := h
  simp only [State.read, h1, h2, h3, h5]

theorem SameBus.access {t u : State} (h : SameBus t u) (c : BusAccess) : SameBus (t.access c) (u.access c) := by
  obtain ⟨h1, h2, h3, h4, h5⟩ := h
  refine ⟨?_, ?_, by simp [h3], by simp [h4], by simp [h5]⟩
  · simp only [State.access_mem, memoryAfter, State.isRam, h1, h5]; rfl
  · simp only [State.access_io, devicesSeen, h2, h5]

/-- From `s` to `t` the cycles `bus` are made, in order and coherently. -/
def Ran (s t : State) (bus : List BusAccess) : Prop := SameBus t (s.partWay bus) ∧ Coherent s bus

theorem Ran.refl (s : State) : Ran s s [] := ⟨⟨rfl, rfl, rfl, rfl, rfl⟩, fun _ _ h => nomatch h⟩

/-- Cycles made from states that agree up to registers leave states that do. -/
theorem SameBus.partWay : ∀ (bus : List BusAccess) {t u : State}, SameBus t u → SameBus (t.partWay bus) (u.partWay bus)
  | [], _, _, h => h
  | c :: bus, _, _, h => SameBus.partWay bus (h.access c)

/-- The first cycles of a coherent sequence are coherent. -/
theorem coherent_take {s : State} {bus : List BusAccess} (h : Coherent s bus) (n : Nat) : Coherent s (bus.take n) := by
  intro k c hk hs
  rw [List.getElem?_take] at hk
  split at hk
  case isTrue hl => rw [List.take_take, Nat.min_eq_left (Nat.le_of_lt hl)]; exact h k c hk hs
  case isFalse => exact nomatch hk

/-- One more cycle, which reads what is there or stores. -/
theorem Ran.access {s t : State} {bus : List BusAccess} (h : Ran s t bus) {c : BusAccess}
    (hc : c.stored = none → c.data = t.read c.addr) : Ran s (t.access c) (bus ++ [c]) := by
  refine ⟨?_, fun k e hk he => ?_⟩
  · rw [State.partWay_append]
    exact h.1.access c
  · rcases Nat.lt_or_ge k bus.length with hl | hl
    · rw [List.getElem?_append_left hl] at hk
      rw [List.take_append_of_le_length (by omega)]
      exact h.2 k e hk he
    · rw [List.getElem?_append_right hl] at hk
      obtain ⟨hk0, rfl⟩ : k - bus.length = 0 ∧ c = e := by
        cases hd : k - bus.length with
        | zero => simpa [hd] using hk
        | succ n => simp [hd] at hk
      rw [show k = bus.length by omega, List.take_left, hc he]
      exact h.1.read c.addr

theorem Ran.load {s t : State} {bus : List BusAccess} (h : Ran s t bus) (k : BusCycle) (a : Word) :
    Ran s (t.load k a) (bus ++ [⟨k, a, t.read a⟩]) := h.access fun _ => rfl

theorem Ran.store {s t : State} {bus : List BusAccess} (h : Ran s t bus) {k : BusCycle} (hk : k = .w ∨ k = .s)
    (a : Word) (v : Byte) : Ran s (t.store k a v) (bus ++ [⟨k, a, v⟩]) :=
  h.access fun he => by rcases hk with rfl | rfl <;> exact nomatch he

/-- A state that differs in registers only has the same cycles. -/
theorem Ran.regs {s t u : State} {bus : List BusAccess} (h : Ran s t bus) (hu : SameBus u t) : Ran s u bus := by
  obtain ⟨⟨h1, h2, h3, h4, h5⟩, hc⟩ := h
  obtain ⟨g1, g2, g3, g4, g5⟩ := hu
  exact ⟨⟨g1.trans h1, g2.trans h2, g3.trans h3, g4.trans h4, g5.trans h5⟩, hc⟩

/-- What cycles do to the rest of the state (R51, R69, R304). -/
theorem Ran.spec {s t : State} {bus : List BusAccess} (h : Ran s t bus) :
    t.bus = s.bus ++ bus ∧ cyclesOf s t = bus ∧ t.cycles = s.cycles + bus.length ∧
      t.io = devicesSeen s bus ∧ t.mem = memoryAfter s bus ∧ t.params = s.params ∧ Coherent s bus := by
  obtain ⟨⟨h1, h2, h3, h4, h5⟩, hc⟩ := h
  have hb : t.bus = s.bus ++ bus := by rw [h4, State.partWay_bus]
  refine ⟨hb, ?_, ?_, ?_, ?_, ?_, hc⟩
  · simp [cyclesOf, hb]
  · rw [h3, State.partWay_cycles]
  · rw [h2, State.partWay_io]
  · rw [h1, State.partWay_mem]
  · rw [h5, State.partWay_params]

/-- A cycle read anywhere in the sequence found what the cycles before it left. -/
theorem Ran.opcode {s t : State} {before after : List BusAccess}
    (h : Ran s t (before ++ ⟨.p, t.pc, t.ibuf⟩ :: after)) (ha : ∀ c ∈ after, c.kind ≠ .p) :
    OpcodeFetched s t := by
  refine ⟨before, after, h.spec.2.1, ha, ?_⟩
  have := h.2 before.length ⟨.p, t.pc, t.ibuf⟩ (by simp) rfl
  simpa using this

end Sys2Proof.Machine
end

