-- ==== Sys2Proof/Laws/Ops.lean ====
section
/-! SUPPORT. What each shared operation can do, said once: the fields it leaves, the fields it writes, the
cycles it makes, and which bytes of memory it changes. -/

namespace Sys2Proof.Machine

open Sys2Proof.Safety

/-! ### `goto`: the last `p` cycle -/

@[simp] theorem State.goto_a (s : State) (t : Word) :
    (s.goto t).a = s.a := by
  simp [State.goto]
@[simp] theorem State.goto_x (s : State) (t : Word) :
    (s.goto t).x = s.x := by
  simp [State.goto]
@[simp] theorem State.goto_h (s : State) (t : Word) :
    (s.goto t).h = s.h := by
  simp [State.goto]
@[simp] theorem State.goto_sp (s : State) (t : Word) :
    (s.goto t).sp = s.sp := by
  simp [State.goto]
@[simp] theorem State.goto_pc (s : State) (t : Word) :
    (s.goto t).pc = t := by
  simp [State.goto]
@[simp] theorem State.goto_ccr (s : State) (t : Word) :
    (s.goto t).ccr = s.ccr := by
  simp [State.goto]
@[simp] theorem State.goto_ibuf (s : State) (t : Word) :
    (s.goto t).ibuf = s.read t := by
  simp [State.goto]
@[simp] theorem State.goto_run (s : State) (t : Word) :
    (s.goto t).run = s.run := by
  simp [State.goto]
@[simp] theorem State.goto_inhibit (s : State) (t : Word) :
    (s.goto t).inhibit = s.inhibit := by
  simp [State.goto]
@[simp] theorem State.goto_inputs (s : State) (t : Word) :
    (s.goto t).inputs = s.inputs := by
  simp [State.goto]
@[simp] theorem State.goto_schedule (s : State) (t : Word) :
    (s.goto t).schedule = s.schedule := by
  simp [State.goto]
@[simp] theorem State.goto_params (s : State) (t : Word) :
    (s.goto t).params = s.params := by
  simp [State.goto]
@[simp] theorem State.goto_mem (s : State) (t : Word) :
    (s.goto t).mem = s.mem := by
  simp [State.goto]
@[simp] theorem State.goto_cycles (s : State) (t : Word) :
    (s.goto t).cycles = s.cycles + 1 := by
  simp [State.goto]
@[simp] theorem State.goto_isRam (s : State) (t : Word) (q : Word) :
    (s.goto t).isRam q = s.isRam q := by
  simp [State.isRam]
@[simp] theorem State.goto_bus (s : State) (t : Word) :
    (s.goto t).bus = s.bus ++ [⟨.p, t, s.read t⟩] := rfl
/-- The first program byte after the opcode (R61). -/
theorem Ran.fetchOne {s t : State} {bus : List BusAccess} (h : Ran s t bus) :
    Ran s (t.fetch 1) (bus ++ [⟨.p, t.pc + 1#16, t.read (t.pc + 1#16)⟩]) := h.load .p (t.pc + 1#16)
/-- Writing a register makes no cycle. -/
theorem Ran.setCcr {s t : State} {bus : List BusAccess} (h : Ran s t bus) (f : Ccr) :
    Ran s (t.setCcr f) bus := h.regs ⟨rfl, rfl, rfl, rfl, rfl⟩
theorem Ran.setA {s t : State} {bus : List BusAccess} (h : Ran s t bus) (v : Byte) :
    Ran s (t.setA v) bus := h.regs ⟨rfl, rfl, rfl, rfl, rfl⟩
theorem Ran.setX {s t : State} {bus : List BusAccess} (h : Ran s t bus) (v : Byte) :
    Ran s (t.setX v) bus := h.regs ⟨rfl, rfl, rfl, rfl, rfl⟩
theorem Ran.setH {s t : State} {bus : List BusAccess} (h : Ran s t bus) (v : Byte) :
    Ran s (t.setH v) bus := h.regs ⟨rfl, rfl, rfl, rfl, rfl⟩
theorem Ran.setSp {s t : State} {bus : List BusAccess} (h : Ran s t bus) (v : Word) :
    Ran s (t.setSp v) bus := h.regs ⟨rfl, rfl, rfl, rfl, rfl⟩
theorem Ran.setRun {s t : State} {bus : List BusAccess} (h : Ran s t bus) (v : RunState) :
    Ran s (t.setRun v) bus := h.regs ⟨rfl, rfl, rfl, rfl, rfl⟩
theorem Ran.setInhibit {s t : State} {bus : List BusAccess} (h : Ran s t bus) (v : Bool) :
    Ran s (t.setInhibit v) bus := h.regs ⟨rfl, rfl, rfl, rfl, rfl⟩
theorem Ran.noteMask {s t : State} {bus : List BusAccess} (h : Ran s t bus) (v : Bool) :
    Ran s (t.noteMask v) bus := h.regs ⟨rfl, rfl, rfl, rfl, rfl⟩
/-- The two cycles of a 16-bit read (R57). -/
theorem Ran.loadWord {s t : State} {bus : List BusAccess} (h : Ran s t bus) (k : BusCycle) (a : Word) :
    Ran s (t.loadWord k a).2
      (bus ++ [⟨k, a, t.read a⟩, ⟨k, a + 1#16, (t.load k a).read (a + 1#16)⟩]) := by
  simpa using (h.load k a).load k (a + 1#16)
/-- The cycle of a `goto`. -/
theorem Ran.goto {s t : State} {bus : List BusAccess} (h : Ran s t bus) (b : Word) :
    Ran s (t.goto b) (bus ++ [⟨.p, b, t.read b⟩]) := (h.load .p b).regs ⟨rfl, rfl, rfl, rfl, rfl⟩

/-! ### `advance` -/

@[simp] theorem State.advance_a (s : State) (n : Nat) :
    (s.advance n).a = s.a := by
  simp [State.advance]
@[simp] theorem State.advance_x (s : State) (n : Nat) :
    (s.advance n).x = s.x := by
  simp [State.advance]
@[simp] theorem State.advance_h (s : State) (n : Nat) :
    (s.advance n).h = s.h := by
  simp [State.advance]
@[simp] theorem State.advance_sp (s : State) (n : Nat) :
    (s.advance n).sp = s.sp := by
  simp [State.advance]
@[simp] theorem State.advance_pc (s : State) (n : Nat) :
    (s.advance n).pc = s.pc + BitVec.ofNat 16 n := by
  simp [State.advance]
@[simp] theorem State.advance_ccr (s : State) (n : Nat) :
    (s.advance n).ccr = s.ccr := by
  simp [State.advance]
@[simp] theorem State.advance_ibuf (s : State) (n : Nat) :
    (s.advance n).ibuf = s.read (s.pc + BitVec.ofNat 16 n) := by
  simp [State.advance]
@[simp] theorem State.advance_run (s : State) (n : Nat) :
    (s.advance n).run = s.run := by
  simp [State.advance]
@[simp] theorem State.advance_inhibit (s : State) (n : Nat) :
    (s.advance n).inhibit = s.inhibit := by
  simp [State.advance]
@[simp] theorem State.advance_inputs (s : State) (n : Nat) :
    (s.advance n).inputs = s.inputs := by
  simp [State.advance]
@[simp] theorem State.advance_schedule (s : State) (n : Nat) :
    (s.advance n).schedule = s.schedule := by
  simp [State.advance]
@[simp] theorem State.advance_params (s : State) (n : Nat) :
    (s.advance n).params = s.params := by
  simp [State.advance]
@[simp] theorem State.advance_mem (s : State) (n : Nat) :
    (s.advance n).mem = s.mem := by
  simp [State.advance]
@[simp] theorem State.advance_cycles (s : State) (n : Nat) :
    (s.advance n).cycles = s.cycles + 1 := by
  simp [State.advance]
@[simp] theorem State.advance_isRam (s : State) (n : Nat) (q : Word) :
    (s.advance n).isRam q = s.isRam q := by
  simp [State.isRam]

/-! ### `advanceThenDummies` -/

@[simp] theorem State.advanceThenDummies_a (s : State) (n : Nat) :
    (s.advanceThenDummies n).a = s.a := by
  simp [State.advanceThenDummies]
@[simp] theorem State.advanceThenDummies_x (s : State) (n : Nat) :
    (s.advanceThenDummies n).x = s.x := by
  simp [State.advanceThenDummies]
@[simp] theorem State.advanceThenDummies_h (s : State) (n : Nat) :
    (s.advanceThenDummies n).h = s.h := by
  simp [State.advanceThenDummies]
@[simp] theorem State.advanceThenDummies_sp (s : State) (n : Nat) :
    (s.advanceThenDummies n).sp = s.sp := by
  simp [State.advanceThenDummies]
@[simp] theorem State.advanceThenDummies_pc (s : State) (n : Nat) :
    (s.advanceThenDummies n).pc = s.pc + 1#16 := by
  simp [State.advanceThenDummies]
@[simp] theorem State.advanceThenDummies_ccr (s : State) (n : Nat) :
    (s.advanceThenDummies n).ccr = s.ccr := by
  simp [State.advanceThenDummies]
@[simp] theorem State.advanceThenDummies_ibuf (s : State) (n : Nat) :
    (s.advanceThenDummies n).ibuf = s.read (s.pc + 1#16) := by
  simp [State.advanceThenDummies]
@[simp] theorem State.advanceThenDummies_run (s : State) (n : Nat) :
    (s.advanceThenDummies n).run = s.run := by
  simp [State.advanceThenDummies]
@[simp] theorem State.advanceThenDummies_inhibit (s : State) (n : Nat) :
    (s.advanceThenDummies n).inhibit = s.inhibit := by
  simp [State.advanceThenDummies]
@[simp] theorem State.advanceThenDummies_inputs (s : State) (n : Nat) :
    (s.advanceThenDummies n).inputs = s.inputs := by
  simp [State.advanceThenDummies]
@[simp] theorem State.advanceThenDummies_schedule (s : State) (n : Nat) :
    (s.advanceThenDummies n).schedule = s.schedule := by
  simp [State.advanceThenDummies]
@[simp] theorem State.advanceThenDummies_params (s : State) (n : Nat) :
    (s.advanceThenDummies n).params = s.params := by
  simp [State.advanceThenDummies]
@[simp] theorem State.advanceThenDummies_mem (s : State) (n : Nat) :
    (s.advanceThenDummies n).mem = s.mem := by
  simp [State.advanceThenDummies]
@[simp] theorem State.advanceThenDummies_cycles (s : State) (n : Nat) :
    (s.advanceThenDummies n).cycles = s.cycles + 1 + n := by
  simp [State.advanceThenDummies]
@[simp] theorem State.advanceThenDummies_isRam (s : State) (n : Nat) (q : Word) :
    (s.advanceThenDummies n).isRam q = s.isRam q := by
  simp [State.isRam]

/-! ### `branch` -/

@[simp] theorem State.branch_a (s : State) (c : Bool) (n : Nat) (rr : Byte) :
    (s.branch c n rr).a = s.a := by
  simp [State.branch]
@[simp] theorem State.branch_x (s : State) (c : Bool) (n : Nat) (rr : Byte) :
    (s.branch c n rr).x = s.x := by
  simp [State.branch]
@[simp] theorem State.branch_h (s : State) (c : Bool) (n : Nat) (rr : Byte) :
    (s.branch c n rr).h = s.h := by
  simp [State.branch]
@[simp] theorem State.branch_sp (s : State) (c : Bool) (n : Nat) (rr : Byte) :
    (s.branch c n rr).sp = s.sp := by
  simp [State.branch]
@[simp] theorem State.branch_pc (s : State) (c : Bool) (n : Nat) (rr : Byte) :
    (s.branch c n rr).pc = if c then s.pc + BitVec.ofNat 16 n + sext16 rr else s.pc + BitVec.ofNat 16 n := by
  simp [State.branch]
@[simp] theorem State.branch_ccr (s : State) (c : Bool) (n : Nat) (rr : Byte) :
    (s.branch c n rr).ccr = s.ccr := by
  simp [State.branch]
@[simp] theorem State.branch_ibuf (s : State) (c : Bool) (n : Nat) (rr : Byte) :
    (s.branch c n rr).ibuf = s.read (s.branch c n rr).pc := by
  simp [State.branch]
@[simp] theorem State.branch_run (s : State) (c : Bool) (n : Nat) (rr : Byte) :
    (s.branch c n rr).run = s.run := by
  simp [State.branch]
@[simp] theorem State.branch_inhibit (s : State) (c : Bool) (n : Nat) (rr : Byte) :
    (s.branch c n rr).inhibit = s.inhibit := by
  simp [State.branch]
@[simp] theorem State.branch_inputs (s : State) (c : Bool) (n : Nat) (rr : Byte) :
    (s.branch c n rr).inputs = s.inputs := by
  simp [State.branch]
@[simp] theorem State.branch_schedule (s : State) (c : Bool) (n : Nat) (rr : Byte) :
    (s.branch c n rr).schedule = s.schedule := by
  simp [State.branch]
@[simp] theorem State.branch_params (s : State) (c : Bool) (n : Nat) (rr : Byte) :
    (s.branch c n rr).params = s.params := by
  simp [State.branch]
@[simp] theorem State.branch_mem (s : State) (c : Bool) (n : Nat) (rr : Byte) :
    (s.branch c n rr).mem = s.mem := by
  simp [State.branch]
@[simp] theorem State.branch_cycles (s : State) (c : Bool) (n : Nat) (rr : Byte) :
    (s.branch c n rr).cycles = s.cycles + 1 := by
  simp [State.branch]
@[simp] theorem State.branch_isRam (s : State) (c : Bool) (n : Nat) (rr : Byte) (q : Word) :
    (s.branch c n rr).isRam q = s.isRam q := by
  simp [State.isRam]

/-! ### `setHx` -/

@[simp] theorem State.setHx_a (s : State) (v : Word) :
    (s.setHx v).a = s.a := rfl
@[simp] theorem State.setHx_x (s : State) (v : Word) :
    (s.setHx v).x = loByte v := rfl
@[simp] theorem State.setHx_h (s : State) (v : Word) :
    (s.setHx v).h = hiByte v := rfl
@[simp] theorem State.setHx_sp (s : State) (v : Word) :
    (s.setHx v).sp = s.sp := rfl
@[simp] theorem State.setHx_pc (s : State) (v : Word) :
    (s.setHx v).pc = s.pc := rfl
@[simp] theorem State.setHx_ccr (s : State) (v : Word) :
    (s.setHx v).ccr = s.ccr := rfl
@[simp] theorem State.setHx_ibuf (s : State) (v : Word) :
    (s.setHx v).ibuf = s.ibuf := rfl
@[simp] theorem State.setHx_run (s : State) (v : Word) :
    (s.setHx v).run = s.run := rfl
@[simp] theorem State.setHx_inhibit (s : State) (v : Word) :
    (s.setHx v).inhibit = s.inhibit := rfl
@[simp] theorem State.setHx_inputs (s : State) (v : Word) :
    (s.setHx v).inputs = s.inputs := rfl
@[simp] theorem State.setHx_schedule (s : State) (v : Word) :
    (s.setHx v).schedule = s.schedule := rfl
@[simp] theorem State.setHx_params (s : State) (v : Word) :
    (s.setHx v).params = s.params := rfl
@[simp] theorem State.setHx_mem (s : State) (v : Word) :
    (s.setHx v).mem = s.mem := rfl
@[simp] theorem State.setHx_io (s : State) (v : Word) :
    (s.setHx v).io = s.io := rfl
@[simp] theorem State.setHx_cycles (s : State) (v : Word) :
    (s.setHx v).cycles = s.cycles := rfl
@[simp] theorem State.setHx_bus (s : State) (v : Word) :
    (s.setHx v).bus = s.bus := rfl
@[simp] theorem State.setHx_isRam (s : State) (v : Word) (q : Word) :
    (s.setHx v).isRam q = s.isRam q := by
  simp [State.isRam]
@[simp] theorem State.setHx_read (s : State) (v : Word) (q : Word) : (s.setHx v).read q = s.read q := rfl
@[simp] theorem wordOf_hi_lo (v : Word) : wordOf (hiByte v) (loByte v) = v := by
  apply BitVec.eq_of_getLsbD_eq
  intro i hi
  simp only [wordOf, hiByte, loByte, BitVec.getLsbD_append, BitVec.getLsbD_extractLsb']
  by_cases h : i < 8
  · simp [h]
  · have h8 : i - 8 < 8 := by omega
    have e : 8 + (i - 8) = i := by omega
    simp [h, h8, e]
@[simp] theorem hiByte_wordOf (u v : Byte) : hiByte (wordOf u v) = u := by
  apply BitVec.eq_of_getLsbD_eq
  intro i hi
  simp only [wordOf, hiByte, BitVec.getLsbD_append, BitVec.getLsbD_extractLsb']
  simp [hi]
@[simp] theorem loByte_wordOf (u v : Byte) : loByte (wordOf u v) = v := by
  apply BitVec.eq_of_getLsbD_eq
  intro i hi
  simp only [wordOf, loByte, BitVec.getLsbD_append, BitVec.getLsbD_extractLsb']
  simp [hi]
@[simp] theorem State.setHx_hx (s : State) (v : Word) : (s.setHx v).hx = v := by
  simp [State.hx]

/-! ### `putA` -/

@[simp] theorem State.putA_a (s : State) (p : Byte × Ccr) :
    (s.putA p).a = p.1 := rfl
@[simp] theorem State.putA_x (s : State) (p : Byte × Ccr) :
    (s.putA p).x = s.x := rfl
@[simp] theorem State.putA_h (s : State) (p : Byte × Ccr) :
    (s.putA p).h = s.h := rfl
@[simp] theorem State.putA_sp (s : State) (p : Byte × Ccr) :
    (s.putA p).sp = s.sp := rfl
@[simp] theorem State.putA_pc (s : State) (p : Byte × Ccr) :
    (s.putA p).pc = s.pc := rfl
@[simp] theorem State.putA_ccr (s : State) (p : Byte × Ccr) :
    (s.putA p).ccr = p.2 := rfl
@[simp] theorem State.putA_ibuf (s : State) (p : Byte × Ccr) :
    (s.putA p).ibuf = s.ibuf := rfl
@[simp] theorem State.putA_run (s : State) (p : Byte × Ccr) :
    (s.putA p).run = s.run := rfl
@[simp] theorem State.putA_inhibit (s : State) (p : Byte × Ccr) :
    (s.putA p).inhibit = s.inhibit := rfl
@[simp] theorem State.putA_inputs (s : State) (p : Byte × Ccr) :
    (s.putA p).inputs = s.inputs := rfl
@[simp] theorem State.putA_schedule (s : State) (p : Byte × Ccr) :
    (s.putA p).schedule = s.schedule := rfl
@[simp] theorem State.putA_params (s : State) (p : Byte × Ccr) :
    (s.putA p).params = s.params := rfl
@[simp] theorem State.putA_mem (s : State) (p : Byte × Ccr) :
    (s.putA p).mem = s.mem := rfl
@[simp] theorem State.putA_io (s : State) (p : Byte × Ccr) :
    (s.putA p).io = s.io := rfl
@[simp] theorem State.putA_cycles (s : State) (p : Byte × Ccr) :
    (s.putA p).cycles = s.cycles := rfl
@[simp] theorem State.putA_bus (s : State) (p : Byte × Ccr) :
    (s.putA p).bus = s.bus := rfl
@[simp] theorem State.putA_isRam (s : State) (p : Byte × Ccr) (q : Word) :
    (s.putA p).isRam q = s.isRam q := by
  simp [State.isRam]
@[simp] theorem State.putA_read (s : State) (p : Byte × Ccr) (q : Word) : (s.putA p).read q = s.read q := rfl

/-! ### `putX` -/

@[simp] theorem State.putX_a (s : State) (p : Byte × Ccr) :
    (s.putX p).a = s.a := rfl
@[simp] theorem State.putX_x (s : State) (p : Byte × Ccr) :
    (s.putX p).x = p.1 := rfl
@[simp] theorem State.putX_h (s : State) (p : Byte × Ccr) :
    (s.putX p).h = s.h := rfl
@[simp] theorem State.putX_sp (s : State) (p : Byte × Ccr) :
    (s.putX p).sp = s.sp := rfl
@[simp] theorem State.putX_pc (s : State) (p : Byte × Ccr) :
    (s.putX p).pc = s.pc := rfl
@[simp] theorem State.putX_ccr (s : State) (p : Byte × Ccr) :
    (s.putX p).ccr = p.2 := rfl
@[simp] theorem State.putX_ibuf (s : State) (p : Byte × Ccr) :
    (s.putX p).ibuf = s.ibuf := rfl
@[simp] theorem State.putX_run (s : State) (p : Byte × Ccr) :
    (s.putX p).run = s.run := rfl
@[simp] theorem State.putX_inhibit (s : State) (p : Byte × Ccr) :
    (s.putX p).inhibit = s.inhibit := rfl
@[simp] theorem State.putX_inputs (s : State) (p : Byte × Ccr) :
    (s.putX p).inputs = s.inputs := rfl
@[simp] theorem State.putX_schedule (s : State) (p : Byte × Ccr) :
    (s.putX p).schedule = s.schedule := rfl
@[simp] theorem State.putX_params (s : State) (p : Byte × Ccr) :
    (s.putX p).params = s.params := rfl
@[simp] theorem State.putX_mem (s : State) (p : Byte × Ccr) :
    (s.putX p).mem = s.mem := rfl
@[simp] theorem State.putX_io (s : State) (p : Byte × Ccr) :
    (s.putX p).io = s.io := rfl
@[simp] theorem State.putX_cycles (s : State) (p : Byte × Ccr) :
    (s.putX p).cycles = s.cycles := rfl
@[simp] theorem State.putX_bus (s : State) (p : Byte × Ccr) :
    (s.putX p).bus = s.bus := rfl
@[simp] theorem State.putX_isRam (s : State) (p : Byte × Ccr) (q : Word) :
    (s.putX p).isRam q = s.isRam q := by
  simp [State.isRam]
@[simp] theorem State.putX_read (s : State) (p : Byte × Ccr) (q : Word) : (s.putX p).read q = s.read q := rfl

/-! ### `noteMask` -/

@[simp] theorem State.noteMask_a (s : State) (before : Bool) :
    (s.noteMask before).a = s.a := rfl
@[simp] theorem State.noteMask_x (s : State) (before : Bool) :
    (s.noteMask before).x = s.x := rfl
@[simp] theorem State.noteMask_h (s : State) (before : Bool) :
    (s.noteMask before).h = s.h := rfl
@[simp] theorem State.noteMask_sp (s : State) (before : Bool) :
    (s.noteMask before).sp = s.sp := rfl
@[simp] theorem State.noteMask_pc (s : State) (before : Bool) :
    (s.noteMask before).pc = s.pc := rfl
@[simp] theorem State.noteMask_ccr (s : State) (before : Bool) :
    (s.noteMask before).ccr = s.ccr := rfl
@[simp] theorem State.noteMask_ibuf (s : State) (before : Bool) :
    (s.noteMask before).ibuf = s.ibuf := rfl
@[simp] theorem State.noteMask_run (s : State) (before : Bool) :
    (s.noteMask before).run = s.run := rfl
@[simp] theorem State.noteMask_inhibit (s : State) (before : Bool) :
    (s.noteMask before).inhibit = (s.params.cliDelay && before && !s.ccr.i) := rfl
@[simp] theorem State.noteMask_inputs (s : State) (before : Bool) :
    (s.noteMask before).inputs = s.inputs := rfl
@[simp] theorem State.noteMask_schedule (s : State) (before : Bool) :
    (s.noteMask before).schedule = s.schedule := rfl
@[simp] theorem State.noteMask_params (s : State) (before : Bool) :
    (s.noteMask before).params = s.params := rfl
@[simp] theorem State.noteMask_mem (s : State) (before : Bool) :
    (s.noteMask before).mem = s.mem := rfl
@[simp] theorem State.noteMask_io (s : State) (before : Bool) :
    (s.noteMask before).io = s.io := rfl
@[simp] theorem State.noteMask_cycles (s : State) (before : Bool) :
    (s.noteMask before).cycles = s.cycles := rfl
@[simp] theorem State.noteMask_bus (s : State) (before : Bool) :
    (s.noteMask before).bus = s.bus := rfl
@[simp] theorem State.noteMask_isRam (s : State) (before : Bool) (q : Word) :
    (s.noteMask before).isRam q = s.isRam q := by
  simp [State.isRam]
@[simp] theorem State.noteMask_read (s : State) (before : Bool) (q : Word) : (s.noteMask before).read q = s.read q := rfl

/-! ### `halt` -/

@[simp] theorem State.halt_a (s : State) (r : RunState) :
    (s.halt r).a = s.a := rfl
@[simp] theorem State.halt_x (s : State) (r : RunState) :
    (s.halt r).x = s.x := rfl
@[simp] theorem State.halt_h (s : State) (r : RunState) :
    (s.halt r).h = s.h := rfl
@[simp] theorem State.halt_sp (s : State) (r : RunState) :
    (s.halt r).sp = s.sp := rfl
@[simp] theorem State.halt_pc (s : State) (r : RunState) :
    (s.halt r).pc = s.pc := rfl
@[simp] theorem State.halt_ccr (s : State) (r : RunState) :
    (s.halt r).ccr = s.ccr.withI false := rfl
@[simp] theorem State.halt_ibuf (s : State) (r : RunState) :
    (s.halt r).ibuf = s.ibuf := rfl
@[simp] theorem State.halt_run (s : State) (r : RunState) :
    (s.halt r).run = r := rfl
@[simp] theorem State.halt_inhibit (s : State) (r : RunState) :
    (s.halt r).inhibit = s.inhibit := rfl
@[simp] theorem State.halt_inputs (s : State) (r : RunState) :
    (s.halt r).inputs = s.inputs := rfl
@[simp] theorem State.halt_schedule (s : State) (r : RunState) :
    (s.halt r).schedule = s.schedule := rfl
@[simp] theorem State.halt_params (s : State) (r : RunState) :
    (s.halt r).params = s.params := rfl
@[simp] theorem State.halt_mem (s : State) (r : RunState) :
    (s.halt r).mem = s.mem := rfl
@[simp] theorem State.halt_io (s : State) (r : RunState) :
    (s.halt r).io = s.io := rfl
@[simp] theorem State.halt_cycles (s : State) (r : RunState) :
    (s.halt r).cycles = s.cycles := rfl
@[simp] theorem State.halt_bus (s : State) (r : RunState) :
    (s.halt r).bus = s.bus := rfl
@[simp] theorem State.halt_isRam (s : State) (r : RunState) (q : Word) :
    (s.halt r).isRam q = s.isRam q := by
  simp [State.isRam]
@[simp] theorem State.halt_read (s : State) (r : RunState) (q : Word) : (s.halt r).read q = s.read q := rfl

/-! ### `push` -/

@[simp] theorem State.push_a (s : State) (v : Byte) :
    (s.push v).a = s.a := by
  simp [State.push]
@[simp] theorem State.push_x (s : State) (v : Byte) :
    (s.push v).x = s.x := by
  simp [State.push]
@[simp] theorem State.push_h (s : State) (v : Byte) :
    (s.push v).h = s.h := by
  simp [State.push]
@[simp] theorem State.push_sp (s : State) (v : Byte) :
    (s.push v).sp = s.sp - 1#16 := by
  simp [State.push]
@[simp] theorem State.push_pc (s : State) (v : Byte) :
    (s.push v).pc = s.pc := by
  simp [State.push]
@[simp] theorem State.push_ccr (s : State) (v : Byte) :
    (s.push v).ccr = s.ccr := by
  simp [State.push]
@[simp] theorem State.push_ibuf (s : State) (v : Byte) :
    (s.push v).ibuf = s.ibuf := by
  simp [State.push]
@[simp] theorem State.push_run (s : State) (v : Byte) :
    (s.push v).run = s.run := by
  simp [State.push]
@[simp] theorem State.push_inhibit (s : State) (v : Byte) :
    (s.push v).inhibit = s.inhibit := by
  simp [State.push]
@[simp] theorem State.push_inputs (s : State) (v : Byte) :
    (s.push v).inputs = s.inputs := by
  simp [State.push]
@[simp] theorem State.push_schedule (s : State) (v : Byte) :
    (s.push v).schedule = s.schedule := by
  simp [State.push]
@[simp] theorem State.push_params (s : State) (v : Byte) :
    (s.push v).params = s.params := by
  simp [State.push]
@[simp] theorem State.push_cycles (s : State) (v : Byte) :
    (s.push v).cycles = s.cycles + 1 := by
  simp [State.push]
@[simp] theorem State.push_isRam (s : State) (v : Byte) (q : Word) :
    (s.push v).isRam q = s.isRam q := by
  simp [State.isRam]

/-- A push stores at the old `SP`. -/
theorem State.push_memRead (s : State) (hm : s.mem.wf = true) (v : Byte) (c : Word) :
    (s.push v).mem.read c.toNat = if c = s.sp ∧ s.isRam s.sp = true then v else s.mem.read c.toNat := by
  simp [State.push, State.store_memRead s hm]

theorem State.push_wf (s : State) (hm : s.mem.wf = true) (v : Byte) : (s.push v).mem.wf = true :=
  State.store_wf s hm .s s.sp v

/-- The cycle of a push (R64). -/
theorem Ran.push {s t : State} {bus : List BusAccess} (h : Ran s t bus) (v : Byte) :
    Ran s (t.push v) (bus ++ [⟨.s, t.sp, v⟩]) :=
  (h.store (.inr rfl) t.sp v).regs ⟨rfl, rfl, rfl, rfl, rfl⟩

/-! ### `pushWord` -/

@[simp] theorem State.pushWord_a (s : State) (v : Word) :
    (s.pushWord v).a = s.a := by
  simp [State.pushWord]
@[simp] theorem State.pushWord_x (s : State) (v : Word) :
    (s.pushWord v).x = s.x := by
  simp [State.pushWord]
@[simp] theorem State.pushWord_h (s : State) (v : Word) :
    (s.pushWord v).h = s.h := by
  simp [State.pushWord]
@[simp] theorem State.pushWord_sp (s : State) (v : Word) :
    (s.pushWord v).sp = s.sp - 1#16 - 1#16 := by
  simp [State.pushWord]
@[simp] theorem State.pushWord_pc (s : State) (v : Word) :
    (s.pushWord v).pc = s.pc := by
  simp [State.pushWord]
@[simp] theorem State.pushWord_ccr (s : State) (v : Word) :
    (s.pushWord v).ccr = s.ccr := by
  simp [State.pushWord]
@[simp] theorem State.pushWord_ibuf (s : State) (v : Word) :
    (s.pushWord v).ibuf = s.ibuf := by
  simp [State.pushWord]
@[simp] theorem State.pushWord_run (s : State) (v : Word) :
    (s.pushWord v).run = s.run := by
  simp [State.pushWord]
@[simp] theorem State.pushWord_inhibit (s : State) (v : Word) :
    (s.pushWord v).inhibit = s.inhibit := by
  simp [State.pushWord]
@[simp] theorem State.pushWord_inputs (s : State) (v : Word) :
    (s.pushWord v).inputs = s.inputs := by
  simp [State.pushWord]
@[simp] theorem State.pushWord_schedule (s : State) (v : Word) :
    (s.pushWord v).schedule = s.schedule := by
  simp [State.pushWord]
@[simp] theorem State.pushWord_params (s : State) (v : Word) :
    (s.pushWord v).params = s.params := by
  simp [State.pushWord]
@[simp] theorem State.pushWord_cycles (s : State) (v : Word) :
    (s.pushWord v).cycles = s.cycles + 1 + 1 := by
  simp [State.pushWord]
@[simp] theorem State.pushWord_isRam (s : State) (v : Word) (q : Word) :
    (s.pushWord v).isRam q = s.isRam q := by
  simp [State.isRam]

/-- The low byte at the old `SP`, the high byte below it (R55). -/
theorem State.pushWord_memRead (s : State) (hm : s.mem.wf = true) (v : Word) (c : Word) :
    (s.pushWord v).mem.read c.toNat =
      if c = s.sp - 1#16 ∧ s.isRam (s.sp - 1#16) = true then hiByte v
      else if c = s.sp ∧ s.isRam s.sp = true then loByte v else s.mem.read c.toNat := by
  simp [State.pushWord, State.push_memRead _ (State.push_wf s hm _), State.push_memRead s hm]

theorem State.pushWord_wf (s : State) (hm : s.mem.wf = true) (v : Word) :
    (s.pushWord v).mem.wf = true :=
  State.push_wf _ (State.push_wf s hm _) _

theorem Ran.pushWord {s t : State} {bus : List BusAccess} (h : Ran s t bus) (v : Word) :
    Ran s (t.pushWord v) (bus ++ [⟨.s, t.sp, loByte v⟩, ⟨.s, t.sp - 1#16, hiByte v⟩]) := by
  simpa [State.pushWord] using (h.push (loByte v)).push (hiByte v)

/-! ### `pull` and `pullWord` -/

@[simp] theorem State.pull_fst (s : State) : s.pull.1 = s.read (s.sp + 1#16) := rfl
@[simp] theorem State.pull_snd (s : State) :
    s.pull.2 = (s.setSp (s.sp + 1#16)).load .u (s.sp + 1#16) := rfl

/-- The cycle of a pull (R65). -/
theorem Ran.pull {s t : State} {bus : List BusAccess} (h : Ran s t bus) :
    Ran s t.pull.2 (bus ++ [⟨.u, t.sp + 1#16, t.pull.1⟩]) :=
  (h.regs (u := t.setSp (t.sp + 1#16)) ⟨rfl, rfl, rfl, rfl, rfl⟩).load .u (t.sp + 1#16)

@[simp] theorem State.pullWord_fst (s : State) :
    s.pullWord.1 = wordOf (s.read (s.sp + 1#16)) (s.pull.2.read (s.pull.2.sp + 1#16)) := rfl
@[simp] theorem State.pullWord_snd (s : State) : s.pullWord.2 = s.pull.2.pull.2 := rfl

/-! ### Exceptions -/

/-- The state of the entry sequence after its five pushes (R264, cycles 2 to 6). -/
def State.entryPushed (s : State) (ret : Word) : State :=
  (((((s.fetch 1).pushWord ret).push s.x).push s.a).push s.ccr.toByte).setCcr (s.ccr.withI true)

theorem State.takeException_eq (s : State) (ret vec : Word) :
    s.takeException ret vec = ((s.entryPushed ret).loadWord .v vec).2.goto ((s.entryPushed ret).loadWord .v vec).1 :=
  rfl

@[simp] theorem State.takeException_a (s : State) (ret vec : Word) :
    (s.takeException ret vec).a = s.a := by
  simp [State.takeException_eq, State.entryPushed]
@[simp] theorem State.takeException_x (s : State) (ret vec : Word) :
    (s.takeException ret vec).x = s.x := by
  simp [State.takeException_eq, State.entryPushed]
@[simp] theorem State.takeException_h (s : State) (ret vec : Word) :
    (s.takeException ret vec).h = s.h := by
  simp [State.takeException_eq, State.entryPushed]
@[simp] theorem State.takeException_sp (s : State) (ret vec : Word) :
    (s.takeException ret vec).sp = s.sp - 5#16 := by
  simp [State.takeException_eq, State.entryPushed, BitVec.sub_eq_add_neg, BitVec.add_assoc]
@[simp] theorem State.takeException_ccr (s : State) (ret vec : Word) :
    (s.takeException ret vec).ccr = s.ccr.withI true := by
  simp [State.takeException_eq, State.entryPushed]
@[simp] theorem State.takeException_run (s : State) (ret vec : Word) :
    (s.takeException ret vec).run = s.run := by
  simp [State.takeException_eq, State.entryPushed]
@[simp] theorem State.takeException_inhibit (s : State) (ret vec : Word) :
    (s.takeException ret vec).inhibit = s.inhibit := by
  simp [State.takeException_eq, State.entryPushed]
@[simp] theorem State.takeException_inputs (s : State) (ret vec : Word) :
    (s.takeException ret vec).inputs = s.inputs := by
  simp [State.takeException_eq, State.entryPushed]
@[simp] theorem State.takeException_schedule (s : State) (ret vec : Word) :
    (s.takeException ret vec).schedule = s.schedule := by
  simp [State.takeException_eq, State.entryPushed]
@[simp] theorem State.takeException_params (s : State) (ret vec : Word) :
    (s.takeException ret vec).params = s.params := by
  simp [State.takeException_eq, State.entryPushed]
@[simp] theorem State.takeException_isRam (s : State) (ret vec q : Word) :
    (s.takeException ret vec).isRam q = s.isRam q := by
  simp [State.isRam]
@[simp] theorem State.takeException_cycles (s : State) (ret vec : Word) :
    (s.takeException ret vec).cycles = s.cycles + 9 := by
  simp [State.takeException_eq, State.entryPushed, Nat.add_assoc]
theorem State.takeException_mem (s : State) (ret vec : Word) :
    (s.takeException ret vec).mem = (s.entryPushed ret).mem := by
  simp [State.takeException_eq]

/-- Three pushes in a row. -/
theorem State.pushThree_memRead (t : State) (h : t.mem.wf = true) (u v w : Byte) (c : Word) :
    (((t.push u).push v).push w).mem.read c.toNat =
      if c = t.sp - 1#16 - 1#16 ∧ t.isRam (t.sp - 1#16 - 1#16) = true then w
      else if c = t.sp - 1#16 ∧ t.isRam (t.sp - 1#16) = true then v
      else if c = t.sp ∧ t.isRam t.sp = true then u else t.mem.read c.toNat := by
  have h1 := State.push_wf t h u
  have h2 := State.push_wf _ h1 v
  rw [State.push_memRead _ h2, State.push_memRead _ h1, State.push_memRead t h]
  simp only [State.push_sp, State.push_isRam]

/-- The frame of R267, in memory. -/
theorem State.takeException_memRead (s : State) (hm : s.mem.wf = true) (ret vec : Word) (c : Word) :
    (s.takeException ret vec).mem.read c.toNat =
      if c = s.sp - 4#16 ∧ s.isRam (s.sp - 4#16) = true then s.ccr.toByte
      else if c = s.sp - 3#16 ∧ s.isRam (s.sp - 3#16) = true then s.a
      else if c = s.sp - 2#16 ∧ s.isRam (s.sp - 2#16) = true then s.x
      else if c = s.sp - 1#16 ∧ s.isRam (s.sp - 1#16) = true then hiByte ret
      else if c = s.sp ∧ s.isRam s.sp = true then loByte ret else s.mem.read c.toNat := by
  have e2 : s.sp - 1#16 - 1#16 = s.sp - 2#16 := by
    simp [BitVec.sub_eq_add_neg, BitVec.add_assoc]
  have e3 : s.sp - 2#16 - 1#16 = s.sp - 3#16 := by
    simp [BitVec.sub_eq_add_neg, BitVec.add_assoc]
  have e4 : s.sp - 3#16 - 1#16 = s.sp - 4#16 := by
    simp [BitVec.sub_eq_add_neg, BitVec.add_assoc]
  have hf : (s.fetch 1).mem.wf = true := by rw [State.fetch_mem]; exact hm
  rw [State.takeException_mem, State.entryPushed, State.setCcr_mem,
    State.pushThree_memRead _ (State.pushWord_wf _ hf ret), State.pushWord_memRead _ hf]
  simp only [State.pushWord_sp, State.pushWord_isRam, State.fetch_sp, State.fetch_isRam, State.fetch_mem,
    e2, e3, e4]

theorem State.takeException_wf (s : State) (hm : s.mem.wf = true) (ret vec : Word) :
    (s.takeException ret vec).mem.wf = true := by
  have hf : (s.fetch 1).mem.wf = true := by rw [State.fetch_mem]; exact hm
  rw [State.takeException_mem, State.entryPushed, State.setCcr_mem]
  exact State.push_wf _ (State.push_wf _ (State.push_wf _ (State.pushWord_wf _ hf ret) _) _) _

/-- `pc` is the content of the vector as the two `v` cycles find it, and the opcode of the handler is in the
buffer. -/
theorem State.takeException_pc (s : State) (ret vec : Word) :
    (s.takeException ret vec).pc = ((s.entryPushed ret).loadWord .v vec).1 ∧
      (s.takeException ret vec).ibuf =
        ((s.entryPushed ret).loadWord .v vec).2.read (s.takeException ret vec).pc := by
  simp [State.takeException_eq]

/-- The nine cycles of the entry sequence (R264), with the frame of R267. -/
theorem State.takeException_entry (s : State) (ret vec : Word) :
    ∃ bus, Ran s (s.takeException ret vec) bus ∧ EntrySequence s (s.takeException ret vec) ret vec bus := by
  have e2 : s.sp - 1#16 - 1#16 = s.sp - 2#16 := by
    simp [BitVec.sub_eq_add_neg, BitVec.add_assoc]
  have e3 : s.sp - 2#16 - 1#16 = s.sp - 3#16 := by
    simp [BitVec.sub_eq_add_neg, BitVec.add_assoc]
  have e4 : s.sp - 3#16 - 1#16 = s.sp - 4#16 := by
    simp [BitVec.sub_eq_add_neg, BitVec.add_assoc]
  have hp := ((((((Ran.refl s).fetchOne.pushWord ret).push s.x).push s.a).push s.ccr.toByte).setCcr
    (s.ccr.withI true)).loadWord .v vec
  rw [← State.entryPushed] at hp
  have h := hp.goto ((s.entryPushed ret).loadWord .v vec).1
  rw [← State.takeException_eq] at h
  simp only [List.nil_append, List.cons_append, State.fetch_sp, State.pushWord_sp,
    State.push_sp, e2, e3, e4] at h
  exact ⟨_, h, _, _, _, _, rfl, h.2, by rw [(State.takeException_pc s ret vec).1]; rfl,
    by rw [(State.takeException_pc s ret vec).2, (State.takeException_pc s ret vec).1]⟩

/-- A byte that was the CCR comes back as it was. -/
@[simp] theorem Ccr.ofByte_toByte (f : Ccr) : Ccr.ofByte f.toByte = f := by
  obtain ⟨v, h, i, n, z, c⟩ := f
  revert v h i n z c
  decide

/-- RTI as its cycles make it (R250): the bytes it pulls, and the registers they go to. -/
theorem State.returnFromException_spec (s : State) :
    ∃ surplus b a x hi lo opcode : Byte,
      Ran s s.returnFromException [⟨.p, s.pc + 1#16, surplus⟩, ⟨.u, s.sp + 1#16, b⟩, ⟨.u, s.sp + 2#16, a⟩,
        ⟨.u, s.sp + 3#16, x⟩, ⟨.u, s.sp + 4#16, hi⟩, ⟨.u, s.sp + 5#16, lo⟩, ⟨.p, wordOf hi lo, opcode⟩] ∧
      s.returnFromException.a = a ∧ s.returnFromException.x = x ∧ s.returnFromException.h = s.h ∧
      s.returnFromException.sp = s.sp + 5#16 ∧ s.returnFromException.ccr = Ccr.ofByte b ∧
      s.returnFromException.pc = wordOf hi lo ∧ s.returnFromException.ibuf = opcode ∧
      s.returnFromException.run = s.run ∧ s.returnFromException.inputs = s.inputs ∧
      s.returnFromException.schedule = s.schedule ∧ s.returnFromException.params = s.params ∧
      s.returnFromException.mem = s.mem ∧
      s.returnFromException.inhibit = (s.params.cliDelay && s.ccr.i && !(Ccr.ofByte b).i) := by
  have e2 : s.sp + 1#16 + 1#16 = s.sp + 2#16 := by simp [BitVec.add_assoc]
  have e3 : s.sp + 2#16 + 1#16 = s.sp + 3#16 := by simp [BitVec.add_assoc]
  have e4 : s.sp + 3#16 + 1#16 = s.sp + 4#16 := by simp [BitVec.add_assoc]
  have e5 : s.sp + 4#16 + 1#16 = s.sp + 5#16 := by simp [BitVec.add_assoc]
  obtain ⟨s1, h1⟩ : ∃ u, u = s.fetch 1 := ⟨_, rfl⟩
  obtain ⟨s2, h2⟩ : ∃ u, u = s1.pull.2 := ⟨_, rfl⟩
  obtain ⟨s3, h3⟩ : ∃ u, u = s2.pull.2 := ⟨_, rfl⟩
  obtain ⟨s4, h4⟩ : ∃ u, u = s3.pull.2 := ⟨_, rfl⟩
  obtain ⟨s5, h5⟩ : ∃ u, u = s4.pull.2 := ⟨_, rfl⟩
  obtain ⟨s6, h6⟩ : ∃ u, u = s5.pull.2 := ⟨_, rfl⟩
  have he : s.returnFromException = ((((s6.setCcr (Ccr.ofByte s1.pull.1)).setA s2.pull.1).setX
      s3.pull.1).noteMask s.ccr.i).goto (wordOf s4.pull.1 s5.pull.1) := by
    subst h6 h5 h4 h3 h2 h1; rfl
  have r1 := (Ran.refl s).fetchOne
  rw [← h1] at r1
  have r2 := r1.pull
  rw [← h2] at r2
  have r3 := r2.pull
  rw [← h3] at r3
  have r4 := r3.pull
  rw [← h4] at r4
  have r5 := r4.pull
  rw [← h5] at r5
  have r6 := r5.pull
  rw [← h6] at r6
  have hr := ((((r6.setCcr (Ccr.ofByte s1.pull.1)).setA s2.pull.1).setX s3.pull.1).noteMask s.ccr.i).goto
    (wordOf s4.pull.1 s5.pull.1)
  have p1 : s1.sp = s.sp := by simp [h1]
  have p2 : s2.sp = s.sp + 1#16 := by simp [h2, p1]
  have p3 : s3.sp = s.sp + 2#16 := by simp [h3, p2, e2]
  have p4 : s4.sp = s.sp + 3#16 := by simp [h4, p3, e3]
  have p5 : s5.sp = s.sp + 4#16 := by simp [h5, p4, e4]
  have p6 : s6.sp = s.sp + 5#16 := by simp [h6, p5, e5]
  simp only [List.nil_append, List.cons_append, p1, p2, p3, p4, p5, e2, e3, e4, e5] at hr
  rw [he]
  refine ⟨_, _, _, _, _, _, _, hr, by simp, by simp, ?_, by simp [p6], by simp, by simp, rfl, ?_, ?_, ?_, ?_, ?_, ?_⟩ <;>
    simp [h6, h5, h4, h3, h2, h1]

/-! ### Operand forms -/

/-! ### `beforeOperand` and `afterOperand` -/

@[simp] theorem beforeOperand_a (m : MemMode) (s : State) : (beforeOperand m s).a = s.a := by
  unfold beforeOperand; split <;> simp
@[simp] theorem afterOperand_a (m : MemMode) (s : State) : (afterOperand m s).a = s.a := by
  unfold afterOperand; split <;> simp
@[simp] theorem beforeOperand_x (m : MemMode) (s : State) : (beforeOperand m s).x = s.x := by
  unfold beforeOperand; split <;> simp
@[simp] theorem afterOperand_x (m : MemMode) (s : State) : (afterOperand m s).x = s.x := by
  unfold afterOperand; split <;> simp
@[simp] theorem beforeOperand_h (m : MemMode) (s : State) : (beforeOperand m s).h = s.h := by
  unfold beforeOperand; split <;> simp
@[simp] theorem afterOperand_h (m : MemMode) (s : State) : (afterOperand m s).h = s.h := by
  unfold afterOperand; split <;> simp
@[simp] theorem beforeOperand_sp (m : MemMode) (s : State) : (beforeOperand m s).sp = s.sp := by
  unfold beforeOperand; split <;> simp
@[simp] theorem afterOperand_sp (m : MemMode) (s : State) : (afterOperand m s).sp = s.sp := by
  unfold afterOperand; split <;> simp
@[simp] theorem beforeOperand_ccr (m : MemMode) (s : State) : (beforeOperand m s).ccr = s.ccr := by
  unfold beforeOperand; split <;> simp
@[simp] theorem afterOperand_ccr (m : MemMode) (s : State) : (afterOperand m s).ccr = s.ccr := by
  unfold afterOperand; split <;> simp
@[simp] theorem beforeOperand_run (m : MemMode) (s : State) : (beforeOperand m s).run = s.run := by
  unfold beforeOperand; split <;> simp
@[simp] theorem afterOperand_run (m : MemMode) (s : State) : (afterOperand m s).run = s.run := by
  unfold afterOperand; split <;> simp
@[simp] theorem beforeOperand_inhibit (m : MemMode) (s : State) : (beforeOperand m s).inhibit = s.inhibit := by
  unfold beforeOperand; split <;> simp
@[simp] theorem afterOperand_inhibit (m : MemMode) (s : State) : (afterOperand m s).inhibit = s.inhibit := by
  unfold afterOperand; split <;> simp
@[simp] theorem beforeOperand_inputs (m : MemMode) (s : State) : (beforeOperand m s).inputs = s.inputs := by
  unfold beforeOperand; split <;> simp
@[simp] theorem afterOperand_inputs (m : MemMode) (s : State) : (afterOperand m s).inputs = s.inputs := by
  unfold afterOperand; split <;> simp
@[simp] theorem beforeOperand_schedule (m : MemMode) (s : State) : (beforeOperand m s).schedule = s.schedule := by
  unfold beforeOperand; split <;> simp
@[simp] theorem afterOperand_schedule (m : MemMode) (s : State) : (afterOperand m s).schedule = s.schedule := by
  unfold afterOperand; split <;> simp
@[simp] theorem beforeOperand_params (m : MemMode) (s : State) : (beforeOperand m s).params = s.params := by
  unfold beforeOperand; split <;> simp
@[simp] theorem afterOperand_params (m : MemMode) (s : State) : (afterOperand m s).params = s.params := by
  unfold afterOperand; split <;> simp
@[simp] theorem beforeOperand_mem (m : MemMode) (s : State) : (beforeOperand m s).mem = s.mem := by
  unfold beforeOperand; split <;> simp
@[simp] theorem afterOperand_mem (m : MemMode) (s : State) : (afterOperand m s).mem = s.mem := by
  unfold afterOperand; split <;> simp
@[simp] theorem beforeOperand_isRam (m : MemMode) (s : State) (q : Word) :
    (beforeOperand m s).isRam q = s.isRam q := by
  simp [State.isRam]
/-- The operand's cycles, whatever they are, end at the next instruction. -/
theorem afterOperand_pc {m : MemMode} {s t : State} (h : t.pc = (beforeOperand m s).pc) :
    (afterOperand m t).pc = s.pc + BitVec.ofNat 16 (modeLength m) := by
  unfold afterOperand
  unfold beforeOperand at h
  split <;> simp_all

/-- An operand in RAM or ROM is what memory holds (R69). -/
theorem memoryValue_held (m : MemMode) (s : State)
    (hk : regionKindAt s.params.memMap (effectiveAddress m s) ∈ [none, some .rom]) :
    memoryValue m s = s.mem.read (effectiveAddress m s).toNat := by
  unfold memoryValue
  rw [State.read_held _ (by simpa using hk), beforeOperand_mem]

/-! ### `readOperand` -/

@[simp] theorem readOperand_a (src : Source) (s : State) : (readOperand src s).a = s.a := by
  unfold readOperand; split <;> simp
@[simp] theorem readOperand_x (src : Source) (s : State) : (readOperand src s).x = s.x := by
  unfold readOperand; split <;> simp
@[simp] theorem readOperand_h (src : Source) (s : State) : (readOperand src s).h = s.h := by
  unfold readOperand; split <;> simp
@[simp] theorem readOperand_sp (src : Source) (s : State) : (readOperand src s).sp = s.sp := by
  unfold readOperand; split <;> simp
@[simp] theorem readOperand_ccr (src : Source) (s : State) : (readOperand src s).ccr = s.ccr := by
  unfold readOperand; split <;> simp
@[simp] theorem readOperand_run (src : Source) (s : State) : (readOperand src s).run = s.run := by
  unfold readOperand; split <;> simp
@[simp] theorem readOperand_inhibit (src : Source) (s : State) : (readOperand src s).inhibit = s.inhibit := by
  unfold readOperand; split <;> simp
@[simp] theorem readOperand_inputs (src : Source) (s : State) : (readOperand src s).inputs = s.inputs := by
  unfold readOperand; split <;> simp
@[simp] theorem readOperand_schedule (src : Source) (s : State) : (readOperand src s).schedule = s.schedule := by
  unfold readOperand; split <;> simp
@[simp] theorem readOperand_params (src : Source) (s : State) : (readOperand src s).params = s.params := by
  unfold readOperand; split <;> simp
@[simp] theorem readOperand_mem (src : Source) (s : State) : (readOperand src s).mem = s.mem := by
  unfold readOperand; split <;> simp
@[simp] theorem readOperand_pc (src : Source) (s : State) : (readOperand src s).pc = s.pc + BitVec.ofNat 16 (sourceLength src) := by
  cases src with
  | imm _ => simp [readOperand, sourceLength]
  | mem m => exact afterOperand_pc (by simp)

/-! ### `readOperand16` -/

@[simp] theorem readOperand16_a (src : Source16) (s : State) : (readOperand16 src s).a = s.a := by
  unfold readOperand16; split <;> simp
@[simp] theorem readOperand16_x (src : Source16) (s : State) : (readOperand16 src s).x = s.x := by
  unfold readOperand16; split <;> simp
@[simp] theorem readOperand16_h (src : Source16) (s : State) : (readOperand16 src s).h = s.h := by
  unfold readOperand16; split <;> simp
@[simp] theorem readOperand16_sp (src : Source16) (s : State) : (readOperand16 src s).sp = s.sp := by
  unfold readOperand16; split <;> simp
@[simp] theorem readOperand16_ccr (src : Source16) (s : State) : (readOperand16 src s).ccr = s.ccr := by
  unfold readOperand16; split <;> simp
@[simp] theorem readOperand16_run (src : Source16) (s : State) : (readOperand16 src s).run = s.run := by
  unfold readOperand16; split <;> simp
@[simp] theorem readOperand16_inhibit (src : Source16) (s : State) : (readOperand16 src s).inhibit = s.inhibit := by
  unfold readOperand16; split <;> simp
@[simp] theorem readOperand16_inputs (src : Source16) (s : State) : (readOperand16 src s).inputs = s.inputs := by
  unfold readOperand16; split <;> simp
@[simp] theorem readOperand16_schedule (src : Source16) (s : State) : (readOperand16 src s).schedule = s.schedule := by
  unfold readOperand16; split <;> simp
@[simp] theorem readOperand16_params (src : Source16) (s : State) : (readOperand16 src s).params = s.params := by
  unfold readOperand16; split <;> simp
@[simp] theorem readOperand16_mem (src : Source16) (s : State) : (readOperand16 src s).mem = s.mem := by
  unfold readOperand16; split <;> simp
@[simp] theorem readOperand16_pc (src : Source16) (s : State) : (readOperand16 src s).pc = s.pc + BitVec.ofNat 16 (source16Length src) := by
  cases src <;> simp [readOperand16, source16Length]

/-! ### `writeOperand` -/

@[simp] theorem writeOperand_a (m : MemMode) (v : Byte) (s : State) : (writeOperand m v s).a = s.a := by
  simp [writeOperand]
@[simp] theorem writeOperand_x (m : MemMode) (v : Byte) (s : State) : (writeOperand m v s).x = s.x := by
  simp [writeOperand]
@[simp] theorem writeOperand_h (m : MemMode) (v : Byte) (s : State) : (writeOperand m v s).h = s.h := by
  simp [writeOperand]
@[simp] theorem writeOperand_sp (m : MemMode) (v : Byte) (s : State) : (writeOperand m v s).sp = s.sp := by
  simp [writeOperand]
@[simp] theorem writeOperand_ccr (m : MemMode) (v : Byte) (s : State) : (writeOperand m v s).ccr = s.ccr := by
  simp [writeOperand]
@[simp] theorem writeOperand_run (m : MemMode) (v : Byte) (s : State) : (writeOperand m v s).run = s.run := by
  simp [writeOperand]
@[simp] theorem writeOperand_inhibit (m : MemMode) (v : Byte) (s : State) : (writeOperand m v s).inhibit = s.inhibit := by
  simp [writeOperand]
@[simp] theorem writeOperand_inputs (m : MemMode) (v : Byte) (s : State) : (writeOperand m v s).inputs = s.inputs := by
  simp [writeOperand]
@[simp] theorem writeOperand_schedule (m : MemMode) (v : Byte) (s : State) : (writeOperand m v s).schedule = s.schedule := by
  simp [writeOperand]
@[simp] theorem writeOperand_params (m : MemMode) (v : Byte) (s : State) : (writeOperand m v s).params = s.params := by
  simp [writeOperand]
@[simp] theorem writeOperand_pc (m : MemMode) (v : Byte) (s : State) :
    (writeOperand m v s).pc = s.pc + BitVec.ofNat 16 (modeLength m) := afterOperand_pc (by simp)
theorem writeOperand_memRead (m : MemMode) (v : Byte) (s : State) (hm : s.mem.wf = true) (c : Word) :
    (writeOperand m v s).mem.read c.toNat =
      if c = effectiveAddress m s ∧ s.isRam (effectiveAddress m s) = true then v else s.mem.read c.toNat := by
  rw [writeOperand, afterOperand_mem, State.store_memRead _ (by simpa using hm) (.inl rfl)]
  simp
theorem writeOperand_wf (m : MemMode) (v : Byte) (s : State) (hm : s.mem.wf = true) : (writeOperand m v s).mem.wf = true := by
  rw [writeOperand, afterOperand_mem]
  exact State.store_wf _ (by simpa using hm) _ _ _

/-! ### `rewriteOperand` -/

@[simp] theorem rewriteOperand_a (m : MemMode) (v : Byte) (s : State) : (rewriteOperand m v s).a = s.a := by
  simp [rewriteOperand]
@[simp] theorem rewriteOperand_x (m : MemMode) (v : Byte) (s : State) : (rewriteOperand m v s).x = s.x := by
  simp [rewriteOperand]
@[simp] theorem rewriteOperand_h (m : MemMode) (v : Byte) (s : State) : (rewriteOperand m v s).h = s.h := by
  simp [rewriteOperand]
@[simp] theorem rewriteOperand_sp (m : MemMode) (v : Byte) (s : State) : (rewriteOperand m v s).sp = s.sp := by
  simp [rewriteOperand]
@[simp] theorem rewriteOperand_ccr (m : MemMode) (v : Byte) (s : State) : (rewriteOperand m v s).ccr = s.ccr := by
  simp [rewriteOperand]
@[simp] theorem rewriteOperand_run (m : MemMode) (v : Byte) (s : State) : (rewriteOperand m v s).run = s.run := by
  simp [rewriteOperand]
@[simp] theorem rewriteOperand_inhibit (m : MemMode) (v : Byte) (s : State) : (rewriteOperand m v s).inhibit = s.inhibit := by
  simp [rewriteOperand]
@[simp] theorem rewriteOperand_inputs (m : MemMode) (v : Byte) (s : State) : (rewriteOperand m v s).inputs = s.inputs := by
  simp [rewriteOperand]
@[simp] theorem rewriteOperand_schedule (m : MemMode) (v : Byte) (s : State) : (rewriteOperand m v s).schedule = s.schedule := by
  simp [rewriteOperand]
@[simp] theorem rewriteOperand_params (m : MemMode) (v : Byte) (s : State) : (rewriteOperand m v s).params = s.params := by
  simp [rewriteOperand]
@[simp] theorem rewriteOperand_pc (m : MemMode) (v : Byte) (s : State) :
    (rewriteOperand m v s).pc = s.pc + BitVec.ofNat 16 (modeLength m) := afterOperand_pc (by simp)
theorem rewriteOperand_memRead (m : MemMode) (v : Byte) (s : State) (hm : s.mem.wf = true) (c : Word) :
    (rewriteOperand m v s).mem.read c.toNat =
      if c = effectiveAddress m s ∧ s.isRam (effectiveAddress m s) = true then v else s.mem.read c.toNat := by
  rw [rewriteOperand, afterOperand_mem, State.store_memRead _ (by simpa using hm) (.inl rfl)]
  simp
theorem rewriteOperand_wf (m : MemMode) (v : Byte) (s : State) (hm : s.mem.wf = true) : (rewriteOperand m v s).mem.wf = true := by
  rw [rewriteOperand, afterOperand_mem]
  exact State.store_wf _ (by simpa using hm) _ _ _

/-- A reader with its result in `A`: the result and the flags of the operation, the next instruction, nothing
else (R120). -/
theorem accumulate_spec (src : Source) (op : Byte → Ccr → Byte × Ccr) (s : State) :
    (accumulate src op s).a = (op (sourceValue src s) s.ccr).1 ∧
      (accumulate src op s).ccr = (op (sourceValue src s) s.ccr).2 ∧ (accumulate src op s).x = s.x ∧
      (accumulate src op s).h = s.h ∧ (accumulate src op s).sp = s.sp ∧
      (accumulate src op s).pc = s.pc + BitVec.ofNat 16 (sourceLength src) ∧
      (accumulate src op s).mem = s.mem := by
  simp [accumulate]

/-- A comparison writes flags only (R124, R125, R126). -/
theorem compareWith_spec (src : Source) (op : Byte → Ccr → Byte × Ccr) (s : State) :
    (compareWith src op s).ccr = (op (sourceValue src s) s.ccr).2 ∧ (compareWith src op s).a = s.a ∧
      (compareWith src op s).x = s.x ∧ (compareWith src op s).h = s.h ∧ (compareWith src op s).sp = s.sp ∧
      (compareWith src op s).pc = s.pc + BitVec.ofNat 16 (sourceLength src) ∧
      (compareWith src op s).mem = s.mem := by
  simp [compareWith]

/-- A read-modify-write of memory: the flags of the operation, its result at the effective address,
registers unchanged (R140). -/
theorem modifyMemory_spec (m : MemMode) (op : Byte → Ccr → Byte × Ccr) (s : State)
    (hm : s.mem.wf = true) :
    (modifyMemory m op s).a = s.a ∧ (modifyMemory m op s).x = s.x ∧ (modifyMemory m op s).h = s.h ∧
      (modifyMemory m op s).sp = s.sp ∧
      (modifyMemory m op s).ccr = (op (memoryValue m s) s.ccr).2 ∧
      (modifyMemory m op s).pc = s.pc + BitVec.ofNat 16 (modeLength m) ∧
      (modifyMemory m op s).mem.wf = true ∧
      ∀ c : Word, (modifyMemory m op s).mem.read c.toNat =
        if c = effectiveAddress m s ∧ s.isRam (effectiveAddress m s) = true
        then (op (memoryValue m s) s.ccr).1 else s.mem.read c.toNat := by
  refine ⟨?_, ?_, ?_, ?_, ?_, ?_, rewriteOperand_wf _ _ _ hm, fun c => ?_⟩
  all_goals simp only [modifyMemory, State.setCcr_a, State.setCcr_x, State.setCcr_h, State.setCcr_sp,
    State.setCcr_ccr, State.setCcr_pc, State.setCcr_mem, rewriteOperand_a, rewriteOperand_x,
    rewriteOperand_h, rewriteOperand_sp, rewriteOperand_pc]
  exact rewriteOperand_memRead _ _ _ hm c

/-- A store of a register: flags of the byte, the byte at the effective address (R132, R133). -/
theorem storeRegister_spec (m : MemMode) (v : Byte) (s : State) (hm : s.mem.wf = true) :
    (storeRegister m v s).a = s.a ∧ (storeRegister m v s).x = s.x ∧ (storeRegister m v s).h = s.h ∧
      (storeRegister m v s).sp = s.sp ∧ (storeRegister m v s).ccr = logic8 v s.ccr ∧
      (storeRegister m v s).pc = s.pc + BitVec.ofNat 16 (modeLength m) ∧
      (storeRegister m v s).mem.wf = true ∧
      ∀ c : Word, (storeRegister m v s).mem.read c.toNat =
        if c = effectiveAddress m s ∧ s.isRam (effectiveAddress m s) = true then v
        else s.mem.read c.toNat := by
  refine ⟨?_, ?_, ?_, ?_, ?_, ?_, writeOperand_wf _ _ _ hm, fun c => ?_⟩
  all_goals simp only [storeRegister, State.setCcr_a, State.setCcr_x, State.setCcr_h, State.setCcr_sp,
    State.setCcr_ccr, State.setCcr_pc, State.setCcr_mem, writeOperand_a, writeOperand_x, writeOperand_h,
    writeOperand_sp, writeOperand_pc]
  exact writeOperand_memRead _ _ _ hm c

end Sys2Proof.Machine
end

