-- ==== Sys2Proof/Laws/PerInstr.lean ====
section
/-! SUPPORT. Facts of every instruction as syntax, one lemma per constructor. -/

namespace Sys2Proof.Laws.ObjectCode

open Sys2Proof.Machine

/-- The object code of a form of Table 1 is 1 to 4 bytes (R80), its duration at most 9 cycles (R304), and
it makes at least as many program fetches as it has bytes (R61). -/
def Statement (i : Instr) : Prop :=
  WellFormed i → 1 ≤ (encode i).length ∧ (encode i).length ≤ 4 ∧ cycleCount i ≤ 9 ∧
    (encode i).length ≤ (cycleCode i).count .p

/-- The statement as a test that can be evaluated. -/
def holds (i : Instr) : Bool :=
  !i.isWellFormed || (1 ≤ (encode i).length && (encode i).length ≤ 4 && cycleCount i ≤ 9 &&
    (encode i).length ≤ (cycleCode i).count .p)

theorem of_holds {i : Instr} (h : holds i = true) : Statement i := by
  intro hw
  rw [WellFormed] at hw
  simp only [holds, hw, Bool.not_true, Bool.false_or, Bool.and_eq_true, decide_eq_true_eq] at h
  exact ⟨h.1.1.1, h.1.1.2, h.1.2, h.2⟩

theorem brset (n : Fin 8) (dd rr : Byte) : Statement (.brset n dd rr) := of_holds rfl
theorem brclr (n : Fin 8) (dd rr : Byte) : Statement (.brclr n dd rr) := of_holds rfl
theorem bset (n : Fin 8) (dd : Byte) : Statement (.bset n dd) := of_holds rfl
theorem bclr (n : Fin 8) (dd : Byte) : Statement (.bclr n dd) := of_holds rfl
theorem bra (rr : Byte) : Statement (.bra rr) := of_holds rfl
theorem brn (rr : Byte) : Statement (.brn rr) := of_holds rfl
theorem bhi (rr : Byte) : Statement (.bhi rr) := of_holds rfl
theorem bls (rr : Byte) : Statement (.bls rr) := of_holds rfl
theorem bcc (rr : Byte) : Statement (.bcc rr) := of_holds rfl
theorem bcs (rr : Byte) : Statement (.bcs rr) := of_holds rfl
theorem bne (rr : Byte) : Statement (.bne rr) := of_holds rfl
theorem beq (rr : Byte) : Statement (.beq rr) := of_holds rfl
theorem bhcc (rr : Byte) : Statement (.bhcc rr) := of_holds rfl
theorem bhcs (rr : Byte) : Statement (.bhcs rr) := of_holds rfl
theorem bpl (rr : Byte) : Statement (.bpl rr) := of_holds rfl
theorem bmi (rr : Byte) : Statement (.bmi rr) := of_holds rfl
theorem bmc (rr : Byte) : Statement (.bmc rr) := of_holds rfl
theorem bms (rr : Byte) : Statement (.bms rr) := of_holds rfl
theorem bil (rr : Byte) : Statement (.bil rr) := of_holds rfl
theorem bih (rr : Byte) : Statement (.bih rr) := of_holds rfl
theorem neg (m : MemMode) : Statement (.neg m) := of_holds (by cases m <;> rfl)
theorem cbeq (m : CbeqMode) (rr : Byte) : Statement (.cbeq m rr) := of_holds (by cases m <;> rfl)
theorem com (m : MemMode) : Statement (.com m) := of_holds (by cases m <;> rfl)
theorem lsr (m : MemMode) : Statement (.lsr m) := of_holds (by cases m <;> rfl)
theorem sthx (dd : Byte) : Statement (.sthx dd) := of_holds rfl
theorem ror (m : MemMode) : Statement (.ror m) := of_holds (by cases m <;> rfl)
theorem asr (m : MemMode) : Statement (.asr m) := of_holds (by cases m <;> rfl)
theorem lsl (m : MemMode) : Statement (.lsl m) := of_holds (by cases m <;> rfl)
theorem rol (m : MemMode) : Statement (.rol m) := of_holds (by cases m <;> rfl)
theorem dec (m : MemMode) : Statement (.dec m) := of_holds (by cases m <;> rfl)
theorem dbnz (m : MemMode) (rr : Byte) : Statement (.dbnz m rr) := of_holds (by cases m <;> rfl)
theorem inc (m : MemMode) : Statement (.inc m) := of_holds (by cases m <;> rfl)
theorem tst (m : MemMode) : Statement (.tst m) := of_holds (by cases m <;> rfl)
theorem clr (m : MemMode) : Statement (.clr m) := of_holds (by cases m <;> rfl)
theorem nega : Statement .nega := of_holds rfl
theorem cbeqa (ii rr : Byte) : Statement (.cbeqa ii rr) := of_holds rfl
theorem mul : Statement .mul := of_holds rfl
theorem coma : Statement .coma := of_holds rfl
theorem lsra : Statement .lsra := of_holds rfl
theorem ldhx (src : Source16) : Statement (.ldhx src) := of_holds (by cases src <;> rfl)
theorem rora : Statement .rora := of_holds rfl
theorem asra : Statement .asra := of_holds rfl
theorem lsla : Statement .lsla := of_holds rfl
theorem rola : Statement .rola := of_holds rfl
theorem deca : Statement .deca := of_holds rfl
theorem dbnza (rr : Byte) : Statement (.dbnza rr) := of_holds rfl
theorem inca : Statement .inca := of_holds rfl
theorem tsta : Statement .tsta := of_holds rfl
theorem mov (f : MoveForm) : Statement (.mov f) := of_holds (by cases f <;> rfl)
theorem clra : Statement .clra := of_holds rfl
theorem negx : Statement .negx := of_holds rfl
theorem cbeqx (ii rr : Byte) : Statement (.cbeqx ii rr) := of_holds rfl
theorem div : Statement .div := of_holds rfl
theorem comx : Statement .comx := of_holds rfl
theorem lsrx : Statement .lsrx := of_holds rfl
theorem rorx : Statement .rorx := of_holds rfl
theorem asrx : Statement .asrx := of_holds rfl
theorem lslx : Statement .lslx := of_holds rfl
theorem rolx : Statement .rolx := of_holds rfl
theorem decx : Statement .decx := of_holds rfl
theorem dbnzx (rr : Byte) : Statement (.dbnzx rr) := of_holds rfl
theorem incx : Statement .incx := of_holds rfl
theorem tstx : Statement .tstx := of_holds rfl
theorem clrx : Statement .clrx := of_holds rfl
theorem nsa : Statement .nsa := of_holds rfl
theorem cphx (src : Source16) : Statement (.cphx src) := of_holds (by cases src <;> rfl)
theorem daa : Statement .daa := of_holds rfl
theorem rti : Statement .rti := of_holds rfl
theorem rts : Statement .rts := of_holds rfl
theorem swi : Statement .swi := of_holds rfl
theorem tap : Statement .tap := of_holds rfl
theorem tpa : Statement .tpa := of_holds rfl
theorem pula : Statement .pula := of_holds rfl
theorem psha : Statement .psha := of_holds rfl
theorem pulx : Statement .pulx := of_holds rfl
theorem pshx : Statement .pshx := of_holds rfl
theorem pulh : Statement .pulh := of_holds rfl
theorem pshh : Statement .pshh := of_holds rfl
theorem clrh : Statement .clrh := of_holds rfl
theorem stop : Statement .stop := of_holds rfl
theorem wait : Statement .wait := of_holds rfl
theorem bge (rr : Byte) : Statement (.bge rr) := of_holds rfl
theorem blt (rr : Byte) : Statement (.blt rr) := of_holds rfl
theorem bgt (rr : Byte) : Statement (.bgt rr) := of_holds rfl
theorem ble (rr : Byte) : Statement (.ble rr) := of_holds rfl
theorem txs : Statement .txs := of_holds rfl
theorem tsx : Statement .tsx := of_holds rfl
theorem tax : Statement .tax := of_holds rfl
theorem clc : Statement .clc := of_holds rfl
theorem sec : Statement .sec := of_holds rfl
theorem cli : Statement .cli := of_holds rfl
theorem sei : Statement .sei := of_holds rfl
theorem rsp : Statement .rsp := of_holds rfl
theorem nop : Statement .nop := of_holds rfl
theorem txa : Statement .txa := of_holds rfl
theorem sub (src : Source) : Statement (.sub src) := of_holds (by rcases src with ii | m <;> [rfl; (cases m <;> rfl)])
theorem cmp (src : Source) : Statement (.cmp src) := of_holds (by rcases src with ii | m <;> [rfl; (cases m <;> rfl)])
theorem sbc (src : Source) : Statement (.sbc src) := of_holds (by rcases src with ii | m <;> [rfl; (cases m <;> rfl)])
theorem cpx (src : Source) : Statement (.cpx src) := of_holds (by rcases src with ii | m <;> [rfl; (cases m <;> rfl)])
theorem and (src : Source) : Statement (.and src) := of_holds (by rcases src with ii | m <;> [rfl; (cases m <;> rfl)])
theorem bit (src : Source) : Statement (.bit src) := of_holds (by rcases src with ii | m <;> [rfl; (cases m <;> rfl)])
theorem lda (src : Source) : Statement (.lda src) := of_holds (by rcases src with ii | m <;> [rfl; (cases m <;> rfl)])
theorem ais (ii : Byte) : Statement (.ais ii) := of_holds rfl
theorem eor (src : Source) : Statement (.eor src) := of_holds (by rcases src with ii | m <;> [rfl; (cases m <;> rfl)])
theorem adc (src : Source) : Statement (.adc src) := of_holds (by rcases src with ii | m <;> [rfl; (cases m <;> rfl)])
theorem ora (src : Source) : Statement (.ora src) := of_holds (by rcases src with ii | m <;> [rfl; (cases m <;> rfl)])
theorem add (src : Source) : Statement (.add src) := of_holds (by rcases src with ii | m <;> [rfl; (cases m <;> rfl)])
theorem bsr (rr : Byte) : Statement (.bsr rr) := of_holds rfl
theorem ldx (src : Source) : Statement (.ldx src) := of_holds (by rcases src with ii | m <;> [rfl; (cases m <;> rfl)])
theorem aix (ii : Byte) : Statement (.aix ii) := of_holds rfl
theorem sta (m : MemMode) : Statement (.sta m) := of_holds (by cases m <;> rfl)
theorem jmp (m : MemMode) : Statement (.jmp m) := of_holds (by cases m <;> rfl)
theorem jsr (m : MemMode) : Statement (.jsr m) := of_holds (by cases m <;> rfl)
theorem stx (m : MemMode) : Statement (.stx m) := of_holds (by cases m <;> rfl)

end Sys2Proof.Laws.ObjectCode
end

