-- ==== Sys2Proof/Laws/Step.lean ====
section
/-! SUPPORT. What a boundary does: the sampled inputs, which source is recognised, reset, interrupt entry, and
the three ways a step goes on. -/

namespace Sys2Proof.Machine

open Sys2Proof.Safety

@[simp] theorem State.sampleInputs_a (s : State) : s.sampleInputs.a = s.a := by
  unfold State.sampleInputs; split <;> rfl
@[simp] theorem State.sampleInputs_x (s : State) : s.sampleInputs.x = s.x := by
  unfold State.sampleInputs; split <;> rfl
@[simp] theorem State.sampleInputs_h (s : State) : s.sampleInputs.h = s.h := by
  unfold State.sampleInputs; split <;> rfl
@[simp] theorem State.sampleInputs_sp (s : State) : s.sampleInputs.sp = s.sp := by
  unfold State.sampleInputs; split <;> rfl
@[simp] theorem State.sampleInputs_pc (s : State) : s.sampleInputs.pc = s.pc := by
  unfold State.sampleInputs; split <;> rfl
@[simp] theorem State.sampleInputs_ccr (s : State) : s.sampleInputs.ccr = s.ccr := by
  unfold State.sampleInputs; split <;> rfl
@[simp] theorem State.sampleInputs_ibuf (s : State) : s.sampleInputs.ibuf = s.ibuf := by
  unfold State.sampleInputs; split <;> rfl
@[simp] theorem State.sampleInputs_run (s : State) : s.sampleInputs.run = s.run := by
  unfold State.sampleInputs; split <;> rfl
@[simp] theorem State.sampleInputs_inhibit (s : State) : s.sampleInputs.inhibit = s.inhibit := by
  unfold State.sampleInputs; split <;> rfl
@[simp] theorem State.sampleInputs_mem (s : State) : s.sampleInputs.mem = s.mem := by
  unfold State.sampleInputs; split <;> rfl
@[simp] theorem State.sampleInputs_io (s : State) : s.sampleInputs.io = s.io := by
  unfold State.sampleInputs; split <;> rfl
@[simp] theorem State.sampleInputs_params (s : State) : s.sampleInputs.params = s.params := by
  unfold State.sampleInputs; split <;> rfl
@[simp] theorem State.sampleInputs_cycles (s : State) : s.sampleInputs.cycles = s.cycles := by
  unfold State.sampleInputs; split <;> rfl
/-- The record of bus cycles starts afresh at every boundary. -/
@[simp] theorem State.sampleInputs_bus (s : State) : s.sampleInputs.bus = [] := by
  unfold State.sampleInputs; split <;> rfl
@[simp] theorem State.sampleInputs_read (s : State) (b : Word) : s.sampleInputs.read b = s.read b := by
  simp [State.read]
@[simp] theorem State.sampleInputs_isRam (s : State) (b : Word) : s.sampleInputs.isRam b = s.isRam b := by
  simp [State.isRam]

/-- What cycles that start at the boundary see and change does not depend on its inputs. -/
theorem State.sampleInputs_ran {s t : State} {bus : List BusAccess} (h : Ran s.sampleInputs t bus) :
    t.bus = bus ∧ t.cycles = s.cycles + bus.length ∧ t.io = devicesSeen s bus ∧ t.mem = memoryAfter s bus ∧
      t.params = s.params ∧ Coherent s bus := by
  obtain ⟨h1, -, h3, h4, h5, h6, h7⟩ := h.spec
  refine ⟨by simpa using h1, by simpa using h3, ?_, ?_, by simpa using h6,
    coherent_congr h7 (by simp) (by simp) (by simp) (by simp)⟩
  · simpa [devicesSeen] using h4
  · simpa [memoryAfter] using h5

/-- A masked or protected boundary recognises nothing (R263). -/
theorem State.recognised_masked (s : State) (h : s.ccr.i = true ∨ s.inhibit = true) :
    s.recognised = none := by
  unfold State.recognised
  rcases h with h | h <;> simp [h]

/-! ### Reset -/

/-- Memory after a reset has the canonical form. -/
theorem State.memoryAfterReset_wf (s : State) (hm : s.mem.wf = true) : s.memoryAfterReset.wf = true := by
  unfold State.memoryAfterReset
  split
  · exact hm
  · exact Memory.wf_tabulate _
  · exact Memory.wf_tabulate _

/-- Memory after a reset, byte by byte (R291, R292). -/
theorem State.memoryAfterReset_read (s : State) (b : Word) :
    s.memoryAfterReset.read b.toNat =
      if s.isRam b then
        match s.params.resetState.ram with
        | .kept => s.mem.read b.toNat
        | .unspecified => Config.drawByte (.resetRam b.toNat) s.cycles
        | .given m => Memory.read m b.toNat
      else s.mem.read b.toNat := by
  unfold State.memoryAfterReset
  cases s.params.resetState.ram
  · rw [Memory.read_tabulate]; simp
  · simp
  · rw [Memory.read_tabulate]; simp

/-- The state the reset sequence leaves, field by field (R290, R291). -/
theorem State.takeReset_spec (s : State) :
    s.takeReset.h = byteAfterReset s.params.resetState.h .resetH s.cycles ∧
      s.takeReset.ccr.i = flagAfterReset s.params.resetState.i .resetI s.cycles ∧
      s.takeReset.run = .running ∧ s.takeReset.inhibit = false ∧
      s.takeReset.mem = s.memoryAfterReset ∧
      s.takeReset.params = s.params ∧ s.takeReset.inputs = s.inputs ∧
      s.takeReset.schedule = s.schedule ∧ s.takeReset.cycles = s.cycles + 3 := by
  refine ⟨?_, ?_, ?_, ?_, ?_, ?_, ?_, ?_, ?_⟩ <;> simp [State.takeReset, State.resetRegisters]

theorem State.takeReset_wf (s : State) (hm : s.mem.wf = true) : s.takeReset.mem.wf = true := by
  rw [(State.takeReset_spec s).2.2.2.2.1]
  exact State.memoryAfterReset_wf s hm

/-- The three cycles of the reset sequence, which find memory as the reset leaves it (R290, R291). -/
theorem State.takeReset_ran (s : State) :
    ∃ hi lo opcode : Byte,
      Ran (s.setMem s.memoryAfterReset) s.takeReset
        [⟨.v, 0xFFFE#16, hi⟩, ⟨.v, 0xFFFF#16, lo⟩, ⟨.p, wordOf hi lo, opcode⟩] ∧
      s.takeReset.pc = wordOf hi lo ∧ s.takeReset.ibuf = opcode := by
  have ht : SameBus s.resetRegisters (s.setMem s.memoryAfterReset) := ⟨rfl, rfl, rfl, rfl, rfl⟩
  have h := (((Ran.refl (s.setMem s.memoryAfterReset)).regs ht).loadWord .v Config.resetVector).goto
    (s.resetRegisters.loadWord .v Config.resetVector).1
  exact ⟨_, _, _, h, rfl, rfl⟩

/-- The bus cycles of the reset sequence, `vvp`, as a reset that nothing breaks into makes them (R290). -/
theorem State.resetCycles_spec (s : State) :
    ∃ hi lo opcode : Byte,
      s.resetCycles = [⟨.v, 0xFFFE#16, hi⟩, ⟨.v, 0xFFFF#16, lo⟩, ⟨.p, wordOf hi lo, opcode⟩] ∧
        Ran (s.setMem s.memoryAfterReset) s.takeReset s.resetCycles := by
  obtain ⟨hi, lo, opcode, h, -, -⟩ := State.takeReset_ran s
  have e : s.resetCycles = [⟨.v, 0xFFFE#16, hi⟩, ⟨.v, 0xFFFF#16, lo⟩, ⟨.p, wordOf hi lo, opcode⟩] := by
    have hb := h.spec.1
    rw [State.setMem_bus] at hb
    rw [State.resetCycles, hb, List.drop_left]
  exact ⟨hi, lo, opcode, e, e ▸ h⟩

/-- The cycles a reset sequence has made when the next reset takes the CPU (R292). -/
theorem State.resetBegun_ran (s : State) (k : Nat) :
    Ran (s.setMem s.memoryAfterReset) (s.resetBegun k) (s.resetCycles.take k) := by
  obtain ⟨-, -, -, -, h⟩ := State.resetCycles_spec s
  have e : SameBus s.resetRegisters (s.setMem s.memoryAfterReset) := ⟨rfl, rfl, rfl, rfl, rfl⟩
  exact ⟨SameBus.partWay _ e, coherent_take h.2 k⟩

/-- A reset sequence that resets fall into ends as one that nothing breaks into, from a state `c` that differs
in what the broken ones have left: nothing else of `s` is changed (R292). -/
theorem State.takeResets_last (again : List Nat) (s : State) :
    ∃ c : State, s.takeResets again = c.takeReset ∧ c.params = s.params ∧ c.inputs = s.inputs ∧
      c.schedule = s.schedule ∧ c.pc = s.pc ∧ s.cycles ≤ c.cycles ∧ (∃ made, c.bus = s.bus ++ made) ∧
      (∃ made, c.io = devicesSeen s made) ∧ (s.mem.wf = true → c.mem.wf = true) ∧
      ∀ b : Word, s.isRam b = false ∨ s.params.resetState.ram = .kept →
        c.mem.read b.toNat = s.mem.read b.toNat := by
  induction again generalizing s with
  | nil => exact ⟨s, rfl, rfl, rfl, rfl, rfl, Nat.le_refl _, ⟨[], by simp⟩, ⟨[], by simp [devicesSeen]⟩, id,
      fun _ _ => rfl⟩
  | cons k again ih =>
    rw [State.takeResets]
    split
    · obtain ⟨c, e, h1, h2, h3, h4, h5, ⟨bus, h6⟩, ⟨io, h7⟩, h8, h9⟩ := ih (s.resetBegun k)
      have sp := (State.resetBegun_ran s k).spec
      have hp : (s.resetBegun k).params = s.params := sp.2.2.2.2.2.1
      have hm : (s.resetBegun k).mem = s.memoryAfterReset := by
        obtain ⟨hi, lo, op, hc, -⟩ := State.resetCycles_spec s
        rw [sp.2.2.2.2.1, hc]
        rcases k with _ | _ | _ | k <;> simp [memoryAfter, BusAccess.stored]
      refine ⟨c, e, h1.trans hp, ?_, ?_, ?_, ?_, ⟨s.resetCycles.take k ++ bus, ?_⟩,
        ⟨s.resetCycles.take k ++ io, ?_⟩, fun hw => h8 ?_, fun b hb => ?_⟩
      · rw [h2]; simp [State.resetBegun, State.resetRegisters]
      · rw [h3]; simp [State.resetBegun, State.resetRegisters]
      · rw [h4]; simp [State.resetBegun, State.resetRegisters]
      · refine Nat.le_trans ?_ h5
        rw [sp.2.2.1, State.setMem_cycles]; exact Nat.le_add_right _ _
      · rw [h6, sp.1, State.setMem_bus, List.append_assoc]
      · rw [h7]
        simp [devicesSeen, hp, sp.2.2.2.1]
      · rw [hm]; exact State.memoryAfterReset_wf s hw
      · rw [h9 b (by simpa [State.isRam, hp] using hb), hm, State.memoryAfterReset_read]
        rcases hb with hb | hb <;> simp [hb]
    · exact ⟨s, rfl, rfl, rfl, rfl, rfl, Nat.le_refl _, ⟨[], by simp⟩, ⟨[], by simp [devicesSeen]⟩, id,
        fun _ _ => rfl⟩

/-- No reset falls into the reset sequence. -/
theorem State.takeResets_undisturbed (s : State) (h : ResetUndisturbed s) :
    s.takeResets s.inputs.resetAgain = s.takeReset := by
  unfold ResetUndisturbed at h
  cases e : s.inputs.resetAgain with
  | nil => rfl
  | cons k again =>
    rw [State.takeResets, if_neg]
    exact Nat.not_lt.mpr (h k (by rw [e]; rfl))

/-! ### Sequences -/

/-- A sequence that touches no marked address. -/
theorem State.finish_next (s t : State) (h : s.firstMarked t.bus = none) : s.finish t = .next t := by
  simp [State.finish, h]

/-- A sequence that touches a marked address is a fault. -/
theorem State.finish_marked (s t : State) (a : Word) (h : s.firstMarked t.bus = some a) :
    s.finish t = .fault (.markedAddress s.pc a) := by
  simp [State.finish, h]

/-- A sequence that no reset falls into. -/
theorem State.sequence_whole (s t : State)
    (h : ∀ k, s.inputs.resetRequest = some k → t.bus.length ≤ k) : s.sequence t = s.finish t := by
  unfold State.sequence
  cases hr : s.inputs.resetRequest with
  | none => rfl
  | some k => simp [Nat.not_lt.mpr (h k hr)]

/-- A sequence that a reset falls into (R292). -/
theorem State.sequence_broken (s t : State) (k : Nat)
    (hr : s.inputs.resetRequest = some k) (hk : k < t.bus.length)
    (hm : s.firstMarked (t.bus.take k) = none) :
    s.sequence t = (s.partWay (t.bus.take k)).resetSequence := by
  simp [State.sequence, hr, hk, hm]

/-! ### Interrupt entry -/

@[simp] theorem State.takeInterrupt_a (s : State) (src : Config.IntSource) :
    (s.takeInterrupt src).a = s.a := by
  simp only [State.takeInterrupt, State.setCycles_a, State.setRun_a, State.takeException_a]
@[simp] theorem State.takeInterrupt_x (s : State) (src : Config.IntSource) :
    (s.takeInterrupt src).x = s.x := by
  simp only [State.takeInterrupt, State.setCycles_x, State.setRun_x, State.takeException_x]
@[simp] theorem State.takeInterrupt_h (s : State) (src : Config.IntSource) :
    (s.takeInterrupt src).h = s.h := by
  simp only [State.takeInterrupt, State.setCycles_h, State.setRun_h, State.takeException_h]
@[simp] theorem State.takeInterrupt_sp (s : State) (src : Config.IntSource) :
    (s.takeInterrupt src).sp = s.sp - 5#16 := by
  simp only [State.takeInterrupt, State.setCycles_sp, State.setRun_sp, State.takeException_sp]
@[simp] theorem State.takeInterrupt_ccr (s : State) (src : Config.IntSource) :
    (s.takeInterrupt src).ccr = s.ccr.withI true := by
  simp only [State.takeInterrupt, State.setCycles_ccr, State.setRun_ccr, State.takeException_ccr]
@[simp] theorem State.takeInterrupt_inhibit (s : State) (src : Config.IntSource) :
    (s.takeInterrupt src).inhibit = s.inhibit := by
  simp only [State.takeInterrupt, State.setCycles_inhibit, State.setRun_inhibit, State.takeException_inhibit]
@[simp] theorem State.takeInterrupt_mem (s : State) (src : Config.IntSource) :
    (s.takeInterrupt src).mem = (s.takeException s.pc src.vector).mem := by
  simp only [State.takeInterrupt, State.setCycles_mem, State.setRun_mem]
@[simp] theorem State.takeInterrupt_pc (s : State) (src : Config.IntSource) :
    (s.takeInterrupt src).pc = (s.takeException s.pc src.vector).pc := by
  simp only [State.takeInterrupt, State.setCycles_pc, State.setRun_pc]
@[simp] theorem State.takeInterrupt_ibuf (s : State) (src : Config.IntSource) :
    (s.takeInterrupt src).ibuf = (s.takeException s.pc src.vector).ibuf := by
  simp only [State.takeInterrupt, State.setCycles_ibuf, State.setRun_ibuf]
@[simp] theorem State.takeInterrupt_inputs (s : State) (src : Config.IntSource) :
    (s.takeInterrupt src).inputs = s.inputs := by
  simp only [State.takeInterrupt, State.setCycles_inputs, State.setRun_inputs, State.takeException_inputs]
@[simp] theorem State.takeInterrupt_schedule (s : State) (src : Config.IntSource) :
    (s.takeInterrupt src).schedule = s.schedule := by
  simp only [State.takeInterrupt, State.setCycles_schedule, State.setRun_schedule, State.takeException_schedule]
@[simp] theorem State.takeInterrupt_io (s : State) (src : Config.IntSource) :
    (s.takeInterrupt src).io = (s.takeException s.pc src.vector).io := by
  simp only [State.takeInterrupt, State.setCycles_io, State.setRun_io]
@[simp] theorem State.takeInterrupt_bus (s : State) (src : Config.IntSource) :
    (s.takeInterrupt src).bus = (s.takeException s.pc src.vector).bus := by
  simp only [State.takeInterrupt, State.setCycles_bus, State.setRun_bus]
@[simp] theorem State.takeInterrupt_params (s : State) (src : Config.IntSource) :
    (s.takeInterrupt src).params = s.params := by
  simp only [State.takeInterrupt, State.setCycles_params, State.setRun_params, State.takeException_params]
@[simp] theorem State.takeInterrupt_run (s : State) (src : Config.IntSource) :
    (s.takeInterrupt src).run = .running := by
  simp only [State.takeInterrupt, State.setCycles_run, State.setRun_run]
@[simp] theorem State.takeInterrupt_cycles (s : State) (src : Config.IntSource) :
    (s.takeInterrupt src).cycles = s.cycles + s.entryCycles := by
  simp only [State.takeInterrupt, State.setCycles_cycles]

/-- Interrupt entry keeps the canonical form of memory. -/
theorem State.takeInterrupt_wf (s : State) (hm : s.mem.wf = true) (src : Config.IntSource) :
    (s.takeInterrupt src).mem.wf = true := by
  rw [State.takeInterrupt_mem]
  exact State.takeException_wf s hm _ _

/-- A reset request at the boundary wins over everything (R271). -/
theorem step_reset (s : State) (h : s.sampleInputs.inputs.resetRequest = some 0) :
    step s = s.sampleInputs.resetSequence := by
  simp [step, State.atBoundary, h]

/-- A recognised interrupt comes before the next instruction (R271). -/
theorem step_interrupt (s : State) (src : Config.IntSource)
    (h : s.sampleInputs.inputs.resetRequest ≠ some 0) (hr : s.sampleInputs.recognised = some src) :
    step s = s.sampleInputs.sequence (s.sampleInputs.takeInterrupt src) := by
  simp [step, State.atBoundary, h, hr]

/-- A halted CPU that nothing wakes stays (R273, R274). -/
theorem step_halted (s : State) (h : s.sampleInputs.inputs.resetRequest ≠ some 0)
    (hr : s.sampleInputs.recognised = none) (hh : s.run ≠ .running) :
    step s = .next s.sampleInputs := by
  have hs : s.sampleInputs.run = s.run := State.sampleInputs_run s
  simp only [step, State.atBoundary, h, hr, hs]
  cases hrun : s.run
  · exact absurd hrun hh
  · rfl
  · rfl

/-- Otherwise the next instruction runs (R262). -/
theorem step_instruction (s : State) (h : s.sampleInputs.inputs.resetRequest ≠ some 0)
    (hr : s.sampleInputs.recognised = none) (hh : s.run = .running) :
    step s = s.sampleInputs.runInstruction := by
  have hs : s.sampleInputs.run = .running := by rw [State.sampleInputs_run, hh]
  simp only [step, State.atBoundary, h, hr, hs, if_false]

end Sys2Proof.Machine
end

