-- ==== Sys2Proof/Tests/Slice0.lean ====
section
/-! SUPPORT. The model's own tests: ill-formed terms refused, words written out from the object-code column,
single instructions with the results of spec/95_test_vectors.md, and for every statement with hypotheses a
state and operands that meet them. -/

namespace Sys2Proof.Tests

open Sys2Proof.Machine Sys2Proof.Safety

/-! ## Well-formedness: one ill-formed term for each check -/

theorem test_wf_refuses_extended_read_modify_write : ¬ WellFormed (.neg (.ext 0x1234#16)) := by decide
theorem test_wf_refuses_sp2_dbnz : ¬ WellFormed (.dbnz (.sp2 0x0001#16) 0x00#8) := by decide
theorem test_wf_refuses_sp1_jump : ¬ WellFormed (.jmp (.sp1 0x01#8)) := by decide
theorem test_wf_refuses_sp2_call : ¬ WellFormed (.jsr (.sp2 0x0001#16)) := by decide

/-! ## Decoding: every constructor from a word written out -/

theorem test_decode_bit_manipulation :
    decode [0x00#8, 0x80#8, 0xFE#8] = .ok (.brset 0 0x80#8 0xFE#8, []) ∧
    decode [0x03#8, 0x80#8, 0xFE#8] = .ok (.brclr 1 0x80#8 0xFE#8, []) ∧
    decode [0x14#8, 0x80#8] = .ok (.bset 2 0x80#8, []) ∧
    decode [0x17#8, 0x80#8] = .ok (.bclr 3 0x80#8, []) :=
  ⟨rfl, rfl, rfl, rfl⟩

theorem test_decode_branch_1 :
    decode [0x20#8, 0xFE#8] = .ok (.bra 0xFE#8, []) ∧
    decode [0x21#8, 0xFE#8] = .ok (.brn 0xFE#8, []) ∧
    decode [0x22#8, 0xFE#8] = .ok (.bhi 0xFE#8, []) ∧
    decode [0x23#8, 0xFE#8] = .ok (.bls 0xFE#8, []) ∧
    decode [0x24#8, 0xFE#8] = .ok (.bcc 0xFE#8, []) ∧
    decode [0x25#8, 0xFE#8] = .ok (.bcs 0xFE#8, []) ∧
    decode [0x26#8, 0xFE#8] = .ok (.bne 0xFE#8, []) ∧
    decode [0x27#8, 0xFE#8] = .ok (.beq 0xFE#8, []) ∧
    decode [0x28#8, 0xFE#8] = .ok (.bhcc 0xFE#8, []) ∧
    decode [0x29#8, 0xFE#8] = .ok (.bhcs 0xFE#8, []) ∧
    decode [0x2A#8, 0xFE#8] = .ok (.bpl 0xFE#8, []) ∧
    decode [0x2B#8, 0xFE#8] = .ok (.bmi 0xFE#8, []) :=
  ⟨rfl, rfl, rfl, rfl, rfl, rfl, rfl, rfl, rfl, rfl, rfl, rfl⟩

theorem test_decode_branch_2 :
    decode [0x2C#8, 0xFE#8] = .ok (.bmc 0xFE#8, []) ∧
    decode [0x2D#8, 0xFE#8] = .ok (.bms 0xFE#8, []) ∧
    decode [0x2E#8, 0xFE#8] = .ok (.bil 0xFE#8, []) ∧
    decode [0x2F#8, 0xFE#8] = .ok (.bih 0xFE#8, []) ∧
    decode [0x31#8, 0x80#8, 0xFE#8] = .ok (.cbeq (.dir 0x80#8) 0xFE#8, []) ∧
    decode [0x61#8, 0x34#8, 0xFE#8] = .ok (.cbeq (.ix1Plus 0x34#8) 0xFE#8, []) ∧
    decode [0x71#8, 0xFE#8] = .ok (.cbeq .ixPlus 0xFE#8, []) ∧
    decode [0x9E#8, 0x61#8, 0x34#8, 0xFE#8] = .ok (.cbeq (.sp1 0x34#8) 0xFE#8, []) ∧
    decode [0x7B#8, 0xFE#8] = .ok (.dbnz .ix 0xFE#8, []) ∧
    decode [0x41#8, 0xA5#8, 0xFE#8] = .ok (.cbeqa 0xA5#8 0xFE#8, []) ∧
    decode [0x4B#8, 0xFE#8] = .ok (.dbnza 0xFE#8, []) ∧
    decode [0x51#8, 0xA5#8, 0xFE#8] = .ok (.cbeqx 0xA5#8 0xFE#8, []) :=
  ⟨rfl, rfl, rfl, rfl, rfl, rfl, rfl, rfl, rfl, rfl, rfl, rfl⟩

theorem test_decode_branch_3 :
    decode [0x5B#8, 0xFE#8] = .ok (.dbnzx 0xFE#8, []) ∧
    decode [0x90#8, 0xFE#8] = .ok (.bge 0xFE#8, []) ∧
    decode [0x91#8, 0xFE#8] = .ok (.blt 0xFE#8, []) ∧
    decode [0x92#8, 0xFE#8] = .ok (.bgt 0xFE#8, []) ∧
    decode [0x93#8, 0xFE#8] = .ok (.ble 0xFE#8, []) :=
  ⟨rfl, rfl, rfl, rfl, rfl⟩

theorem test_decode_read_modify_write_1 :
    decode [0x30#8, 0x80#8] = .ok (.neg (.dir 0x80#8), []) ∧
    decode [0x73#8] = .ok (.com .ix, []) ∧
    decode [0x9E#8, 0x64#8, 0x34#8] = .ok (.lsr (.sp1 0x34#8), []) ∧
    decode [0x66#8, 0x34#8] = .ok (.ror (.ix1 0x34#8), []) ∧
    decode [0x77#8] = .ok (.asr .ix, []) ∧
    decode [0x9E#8, 0x68#8, 0x34#8] = .ok (.lsl (.sp1 0x34#8), []) ∧
    decode [0x39#8, 0x80#8] = .ok (.rol (.dir 0x80#8), []) ∧
    decode [0x6A#8, 0x34#8] = .ok (.dec (.ix1 0x34#8), []) ∧
    decode [0x9E#8, 0x6C#8, 0x34#8] = .ok (.inc (.sp1 0x34#8), []) ∧
    decode [0x3D#8, 0x80#8] = .ok (.tst (.dir 0x80#8), []) ∧
    decode [0x6F#8, 0x34#8] = .ok (.clr (.ix1 0x34#8), []) ∧
    decode [0x40#8] = .ok (.nega, []) :=
  ⟨rfl, rfl, rfl, rfl, rfl, rfl, rfl, rfl, rfl, rfl, rfl, rfl⟩

theorem test_decode_read_modify_write_2 :
    decode [0x43#8] = .ok (.coma, []) ∧
    decode [0x44#8] = .ok (.lsra, []) ∧
    decode [0x46#8] = .ok (.rora, []) ∧
    decode [0x47#8] = .ok (.asra, []) ∧
    decode [0x48#8] = .ok (.lsla, []) ∧
    decode [0x49#8] = .ok (.rola, []) ∧
    decode [0x4A#8] = .ok (.deca, []) ∧
    decode [0x4C#8] = .ok (.inca, []) ∧
    decode [0x4D#8] = .ok (.tsta, []) ∧
    decode [0x4F#8] = .ok (.clra, []) ∧
    decode [0x50#8] = .ok (.negx, []) ∧
    decode [0x53#8] = .ok (.comx, []) :=
  ⟨rfl, rfl, rfl, rfl, rfl, rfl, rfl, rfl, rfl, rfl, rfl, rfl⟩

theorem test_decode_read_modify_write_3 :
    decode [0x54#8] = .ok (.lsrx, []) ∧
    decode [0x56#8] = .ok (.rorx, []) ∧
    decode [0x57#8] = .ok (.asrx, []) ∧
    decode [0x58#8] = .ok (.lslx, []) ∧
    decode [0x59#8] = .ok (.rolx, []) ∧
    decode [0x5A#8] = .ok (.decx, []) ∧
    decode [0x5C#8] = .ok (.incx, []) ∧
    decode [0x5D#8] = .ok (.tstx, []) ∧
    decode [0x5F#8] = .ok (.clrx, []) ∧
    decode [0x8C#8] = .ok (.clrh, []) :=
  ⟨rfl, rfl, rfl, rfl, rfl, rfl, rfl, rfl, rfl, rfl⟩

theorem test_decode_index_stack_move_1 :
    decode [0x35#8, 0x80#8] = .ok (.sthx 0x80#8, []) ∧
    decode [0x55#8, 0x80#8] = .ok (.ldhx (.dir 0x80#8), []) ∧
    decode [0x4E#8, 0x80#8, 0x81#8] = .ok (.mov (.dirDir 0x80#8 0x81#8), []) ∧
    decode [0x5E#8, 0x80#8] = .ok (.mov (.dirIxPlus 0x80#8), []) ∧
    decode [0x6E#8, 0xA5#8, 0x80#8] = .ok (.mov (.immDir 0xA5#8 0x80#8), []) ∧
    decode [0x7E#8, 0x80#8] = .ok (.mov (.ixPlusDir 0x80#8), []) ∧
    decode [0x75#8, 0x80#8] = .ok (.cphx (.dir 0x80#8), []) ∧
    decode [0x86#8] = .ok (.pula, []) ∧
    decode [0x87#8] = .ok (.psha, []) ∧
    decode [0x88#8] = .ok (.pulx, []) ∧
    decode [0x89#8] = .ok (.pshx, []) ∧
    decode [0x8A#8] = .ok (.pulh, []) :=
  ⟨rfl, rfl, rfl, rfl, rfl, rfl, rfl, rfl, rfl, rfl, rfl, rfl⟩

theorem test_decode_index_stack_move_2 :
    decode [0x8B#8] = .ok (.pshh, []) ∧
    decode [0x94#8] = .ok (.txs, []) ∧
    decode [0x95#8] = .ok (.tsx, []) ∧
    decode [0x9C#8] = .ok (.rsp, []) ∧
    decode [0xA7#8, 0xA5#8] = .ok (.ais 0xA5#8, []) ∧
    decode [0xAF#8, 0xA5#8] = .ok (.aix 0xA5#8, []) :=
  ⟨rfl, rfl, rfl, rfl, rfl, rfl⟩

theorem test_decode_inherent_1 :
    decode [0x42#8] = .ok (.mul, []) ∧
    decode [0x52#8] = .ok (.div, []) ∧
    decode [0x62#8] = .ok (.nsa, []) ∧
    decode [0x72#8] = .ok (.daa, []) ∧
    decode [0x84#8] = .ok (.tap, []) ∧
    decode [0x85#8] = .ok (.tpa, []) ∧
    decode [0x97#8] = .ok (.tax, []) ∧
    decode [0x98#8] = .ok (.clc, []) ∧
    decode [0x99#8] = .ok (.sec, []) ∧
    decode [0x9A#8] = .ok (.cli, []) ∧
    decode [0x9B#8] = .ok (.sei, []) ∧
    decode [0x9D#8] = .ok (.nop, []) :=
  ⟨rfl, rfl, rfl, rfl, rfl, rfl, rfl, rfl, rfl, rfl, rfl, rfl⟩

theorem test_decode_inherent_2 :
    decode [0x9F#8] = .ok (.txa, []) :=
  rfl

theorem test_decode_system :
    decode [0x80#8] = .ok (.rti, []) ∧
    decode [0x83#8] = .ok (.swi, []) ∧
    decode [0x8E#8] = .ok (.stop, []) ∧
    decode [0x8F#8] = .ok (.wait, []) :=
  ⟨rfl, rfl, rfl, rfl⟩

theorem test_decode_jump_subroutine :
    decode [0x81#8] = .ok (.rts, []) ∧
    decode [0xAD#8, 0xFE#8] = .ok (.bsr 0xFE#8, []) ∧
    decode [0xCC#8, 0x12#8, 0x34#8] = .ok (.jmp (.ext 0x1234#16), []) ∧
    decode [0xDD#8, 0x56#8, 0x34#8] = .ok (.jsr (.ix2 0x5634#16), []) :=
  ⟨rfl, rfl, rfl, rfl⟩

theorem test_decode_register_memory_1 :
    decode [0x9E#8, 0xE0#8, 0x34#8] = .ok (.sub (.mem (.sp1 0x34#8)), []) ∧
    decode [0xA1#8, 0xA5#8] = .ok (.cmp (.imm 0xA5#8), []) ∧
    decode [0xB2#8, 0x80#8] = .ok (.sbc (.mem (.dir 0x80#8)), []) ∧
    decode [0xC3#8, 0x12#8, 0x34#8] = .ok (.cpx (.mem (.ext 0x1234#16)), []) ∧
    decode [0xD4#8, 0x56#8, 0x34#8] = .ok (.and (.mem (.ix2 0x5634#16)), []) ∧
    decode [0xE5#8, 0x34#8] = .ok (.bit (.mem (.ix1 0x34#8)), []) ∧
    decode [0xF6#8] = .ok (.lda (.mem .ix), []) ∧
    decode [0x9E#8, 0xE8#8, 0x34#8] = .ok (.eor (.mem (.sp1 0x34#8)), []) ∧
    decode [0xA9#8, 0xA5#8] = .ok (.adc (.imm 0xA5#8), []) ∧
    decode [0xBA#8, 0x80#8] = .ok (.ora (.mem (.dir 0x80#8)), []) ∧
    decode [0xCB#8, 0x12#8, 0x34#8] = .ok (.add (.mem (.ext 0x1234#16)), []) ∧
    decode [0xEE#8, 0x34#8] = .ok (.ldx (.mem (.ix1 0x34#8)), []) :=
  ⟨rfl, rfl, rfl, rfl, rfl, rfl, rfl, rfl, rfl, rfl, rfl, rfl⟩

theorem test_decode_register_memory_2 :
    decode [0x9E#8, 0xD7#8, 0x56#8, 0x34#8] = .ok (.sta (.sp2 0x5634#16), []) ∧
    decode [0xCF#8, 0x12#8, 0x34#8] = .ok (.stx (.ext 0x1234#16), []) :=
  ⟨rfl, rfl⟩

theorem test_decode_highest_bit : decode [0x0F#8, 0x80#8, 0xFD#8] = .ok (.brclr 7 0x80#8 0xFD#8, []) := by
  decide
theorem test_decode_prefix_does_not_fall_through :
    decode [0x9E#8, 0x62#8, 0#8, 0#8] = .error (.illegalPrefixed 0x62#8) := by decide
theorem test_decode_undefined : decode [0x32#8] = .error (.illegalOpcode 0x32#8) := by decide

/-! ## One step on a small state

Results are those of spec/95_test_vectors.md (V40 to V47) and of the examples of the instruction rules. -/

/-- A state at `$1000` with a few bytes of RAM. -/
def small (v h i n z c : Bool) : State :=
  { State.reset with
    pc := 0x1000#16
    ccr := ⟨v, h, i, n, z, c⟩
    mem := [(0x80, 0x81#8), (0xFB, 0xE9#8), (0xFC, 0x56#8), (0xFD, 0x34#8), (0xFE, 0x12#8), (0xFF, 0x01#8),
      (0x1000, 0x9D#8), (0x1001, 0x9D#8), (0xFFFC, 0x90#8), (0xFFFE, 0x10#8)] }

/-- All flags clear. -/
def clear : State := small false false false false false false

/-- The next state of an outcome. -/
def nextOf : Host.Outcome State Fault Refusal → Option State
  | .next t => some t
  | .fault _ => none
  | .refused _ => none

/-- `A` and the CCR byte. -/
def accOf (o : Host.Outcome State Fault Refusal) : Option (Byte × Byte) :=
  (nextOf o).map fun t => (t.a, t.ccr.toByte)

/-- `H:X` and the CCR byte. -/
def indexOf (o : Host.Outcome State Fault Refusal) : Option (Word × Byte) :=
  (nextOf o).map fun t => (t.hx, t.ccr.toByte)

/-- The byte at an address and the CCR byte. -/
def byteOf (a : Word) (o : Host.Outcome State Fault Refusal) : Option (Byte × Byte) :=
  (nextOf o).map fun t => (t.read a, t.ccr.toByte)

/-- `pc` and `SP`. -/
def flowOf (o : Host.Outcome State Fault Refusal) : Option (Word × Word) :=
  (nextOf o).map fun t => (t.pc, t.sp)

theorem test_add_signed_overflow :
    accOf (exec (.add (.imm 0x01#8)) { clear with a := 0x7F#8 }) = some (0x80#8, 0xF4#8) := by decide
theorem test_adc_carry_in_and_out :
    accOf (exec (.adc (.imm 0x00#8)) { small false false false false false true with a := 0xFF#8 }) =
      some (0x00#8, 0x73#8) := by decide
theorem test_sub_borrow :
    accOf (exec (.sub (.imm 0x01#8)) { clear with a := 0x00#8 }) = some (0xFF#8, 0x65#8) := by decide
theorem test_sbc_full_borrow :
    accOf (exec (.sbc (.imm 0xFF#8)) { small false false false false false true with a := 0x00#8 }) =
      some (0x00#8, 0x63#8) := by decide
theorem test_cmp_signed_overflow :
    accOf (exec (.cmp (.imm 0x80#8)) { clear with a := 0x7F#8 }) = some (0x7F#8, 0xE5#8) := by decide
theorem test_and_clears_v :
    accOf (exec (.and (.imm 0x0F#8)) { small true false false false false false with a := 0xF0#8 }) =
      some (0x00#8, 0x62#8) := by decide
theorem test_lda_wraps_the_address_space :
    accOf (exec (.lda (.mem (.ix2 0xFFFF#16))) { clear with h := 0x01#8, x := 0x00#8 }) =
      some (0x01#8, 0x60#8) := by decide
theorem test_ldx_uses_the_old_index :
    indexOf (exec (.ldx (.mem .ix)) { clear with x := 0x80#8 }) = some (0x0081#16, 0x64#8) := by decide
theorem test_sta_direct :
    byteOf 0x80#16 (exec (.sta (.dir 0x80#8)) { clear with a := 0x55#8 }) = some (0x55#8, 0x60#8) := by decide
theorem test_asr_keeps_bit_7 :
    accOf (exec .asra { clear with a := 0x81#8 }) = some (0xC0#8, 0x65#8) := by decide
theorem test_rol_through_carry :
    accOf (exec .rola { small false false false false false true with a := 0x80#8 }) =
      some (0x01#8, 0xE1#8) := by decide
theorem test_ror_memory :
    byteOf 0xFF#16 (exec (.ror (.sp1 0x03#8)) { small false false false false false true with
      sp := 0x00FC#16 }) = some (0x80#8, 0x65#8) := by decide
theorem test_neg_of_minimum :
    accOf (exec .nega { clear with a := 0x80#8 }) = some (0x80#8, 0xE5#8) := by decide
theorem test_inc_keeps_carry :
    accOf (exec .inca { small false false false false false true with a := 0x7F#8 }) =
      some (0x80#8, 0xE5#8) := by decide
theorem test_clrh_is_the_register :
    indexOf (exec .clrh { clear with h := 0x12#8 }) = some (0x0000#16, 0x62#8) := by decide
theorem test_brset_takes_the_bit :
    flowOf (exec (.brset 0 0x80#8 0x10#8) clear) = some (0x1013#16, 0x00FF#16) := by decide
theorem test_brset_carry :
    accOf (exec (.brset 0 0x80#8 0x10#8) clear) = some (0x00#8, 0x61#8) := by decide
theorem test_bclr : byteOf 0x80#16 (exec (.bclr 0 0x80#8) clear) = some (0x80#8, 0x60#8) := by decide
theorem test_bra_backwards : flowOf (exec (.bra 0x80#8) clear) = some (0x0F82#16, 0x00FF#16) := by decide
theorem test_bgt_not_taken_when_equal :
    flowOf (exec (.bgt 0x10#8) (small false false false false true false)) =
      some (0x1002#16, 0x00FF#16) := by decide
theorem test_cbeq_increments_though_not_taken :
    indexOf (exec (.cbeq .ixPlus 0x10#8) { clear with a := 0x02#8, x := 0xFF#8 }) =
      some (0x0100#16, 0x60#8) := by decide
theorem test_dbnza_from_zero_branches :
    flowOf (exec (.dbnza 0xFE#8) { clear with a := 0x00#8 }) = some (0x1000#16, 0x00FF#16) := by decide
theorem test_jsr_wraps_the_stack :
    flowOf (exec (.jsr (.ext 0x2000#16)) { clear with sp := 0x0000#16 }) =
      some (0x2000#16, 0xFFFE#16) := by decide
theorem test_jsr_low_byte_first :
    byteOf 0x00#16 (exec (.jsr (.ext 0x2000#16)) { clear with sp := 0x0000#16 }) =
      some (0x03#8, 0x60#8) := by decide
theorem test_rts : flowOf (exec .rts { clear with sp := 0x00FC#16 }) = some (0x3412#16, 0x00FE#16) := by decide
theorem test_aix_carries_into_h :
    indexOf (exec (.aix 0x01#8) { clear with x := 0xFF#8 }) = some (0x0100#16, 0x60#8) := by decide
theorem test_ais_negative : flowOf (exec (.ais 0xFE#8) clear) = some (0x1002#16, 0x00FD#16) := by decide
theorem test_sthx_leaves_the_direct_page :
    byteOf 0x0100#16 (exec (.sthx 0xFF#8) { clear with h := 0x00#8, x := 0x34#8 }) =
      some (0x34#8, 0x60#8) := by decide
theorem test_cphx_signed_overflow :
    indexOf (exec (.cphx (.imm 0x8000#16)) { clear with h := 0x13#8, x := 0x00#8 }) =
      some (0x1300#16, 0xE5#8) := by decide
theorem test_mov_direct_to_index :
    byteOf 0x0100#16 (exec (.mov (.dirIxPlus 0x80#8)) { clear with h := 0x01#8, x := 0x00#8 }) =
      some (0x81#8, 0x64#8) := by decide
theorem test_pula : accOf (exec .pula { clear with sp := 0x00FC#16 }) = some (0x34#8, 0x60#8) := by decide
theorem test_psha_prefetches_first :
    (nextOf (exec .psha { clear with a := 0x42#8, sp := 0x1001#16 })).map (fun t => (t.ibuf, t.read 0x1001#16)) =
      some (0x9D#8, 0x42#8) := by decide
theorem test_sta_direct_is_seen_by_the_fetch :
    (nextOf (exec (.sta (.ext 0x1003#16)) { clear with a := 0x42#8 })).map (fun t => t.ibuf) =
      some 0x42#8 := by decide
theorem test_mul_high_half_in_x :
    (nextOf (exec .mul { clear with a := 0xFF#8, x := 0xFF#8 })).map (fun t => (t.x, t.a, t.h)) =
      some (0xFE#8, 0x01#8, 0x00#8) := by decide
theorem test_div_largest :
    (nextOf (exec .div { clear with h := 0xFE#8, a := 0xFF#8, x := 0xFF#8 })).map
      (fun t => (t.a, t.h, t.ccr.c)) = some (0xFF#8, 0xFE#8, false) := by decide
theorem test_div_overflow_sets_carry :
    (nextOf (exec .div { clear with h := 0x10#8, x := 0x10#8 })).map (fun t => (t.ccr.c, t.x)) =
      some (true, 0x10#8) := by decide
theorem test_daa_carry_out :
    (nextOf (exec .daa { clear with a := 0x9A#8 })).map (fun t => (t.a, t.ccr.c, t.ccr.z)) =
      some (0x00#8, true, true) := by decide
theorem test_daa_half_carry :
    (nextOf (exec .daa { small false true false false false false with a := 0x12#8 })).map
      (fun t => (t.a, t.ccr.c, t.ccr.h)) = some (0x18#8, false, true) := by decide
theorem test_nsa : accOf (exec .nsa { clear with a := 0x3C#8 }) = some (0xC3#8, 0x60#8) := by decide
theorem test_tap_ignores_bits_6_and_5 :
    accOf (exec .tap { clear with a := 0x9F#8 }) = some (0x9F#8, 0xFF#8) := by decide
theorem test_swi_frame :
    (nextOf (exec .swi { clear with a := 0x05#8, x := 0x07#8, pc := 0x1004#16 })).map (fun t =>
      ([t.read 0xFF#16, t.read 0xFE#16, t.read 0xFD#16, t.read 0xFC#16, t.read 0xFB#16], t.sp, t.pc, t.ccr.i)) =
      some ([0x05#8, 0x10#8, 0x07#8, 0x05#8, 0x60#8], 0x00FA#16, 0x9000#16, true) := by decide
theorem test_rti :
    (nextOf (exec .rti { clear with sp := 0x00FA#16, h := 0x77#8 })).map (fun t =>
      ((t.ccr.toByte, t.a, t.x), t.h, t.pc, t.sp)) =
      some ((0xE9#8, 0x56#8, 0x34#8), 0x77#8, 0x1201#16, 0x00FF#16) := by decide
theorem test_wait_halts :
    (nextOf (exec .wait (small false false true false false false))).map (fun t => (t.run, t.ccr.i, t.pc)) =
      some (.waiting, false, 0x1001#16) := by decide

/-! ## The step -/

/-- One interrupt source, vector `$FFF2`, requesting. -/
def asking (s : State) : State :=
  { s with
    params := { s.params with intSources := [⟨0xFFF2#16, true⟩] }
    inputs := { Inputs.quiet with requests := [true] } }

theorem test_reset_reads_the_vector : State.reset.pc = 0x0000#16 ∧ State.reset.ibuf = 0x00#8 := by decide

theorem test_step_runs_the_placed_word :
    decodeTableWord 16 0xA655 = some (.lda (.imm 0x55#8)) ∧
      accOf (step (State.reset.withFetchWord 16 0xA655)) = some (0x55#8, 0x68#8) := by decide

theorem test_step_counts_cycles :
    (nextOf (step (State.reset.withFetchWord 16 0x5200))).map (fun t => t.cycles) = some 10 := by decide

theorem test_step_takes_the_interrupt :
    (nextOf (step (asking clear))).map (fun t => (t.sp, t.ccr.i, t.read 0xFE#16, t.cycles)) =
      some (0x00FA#16, true, 0x10#8, 12) := by decide

theorem test_masked_interrupt_waits :
    (nextOf (step (asking { small false false true false false false with ibuf := 0x9D#8 }))).map
      (fun t => (t.pc, t.sp)) = some (0x1001#16, 0x00FF#16) := by decide

theorem test_undefined_opcode_faults :
    (match step { clear with ibuf := 0x32#8 } with
      | .fault (.illegalOpcode pc bytes) => (pc, bytes) == (0x1000#16, [0x32#8])
      | .fault (.markedAddress _ _) => false
      | .next _ => false
      | .refused _ => false) = true := by decide

/-- `MemMap` places this kind at `$0080` to `$008F`. -/
def mapped (k : Config.RegionKind) (s : State) : State :=
  { s with params := { s.params with memMap := [⟨0x0080#16, 0x008F#16, k⟩] } }

/-- The next boundary's inputs ask for a reset after `k` bus cycles. -/
def resetting (k : Nat) (s : State) : State :=
  { s with schedule := [{ Inputs.quiet with resetRequest := some k }] }

/-- STHX `$40` about to run, and RAM kept over a reset. -/
def storing : State :=
  { clear with
    h := 0x12#8
    x := 0x34#8
    ibuf := 0x35#8
    mem := clear.mem.write 0x1001 0x40#8
    params := { clear.params with resetState := { Config.defaultResetState with ram := .kept } } }

/-- The address and byte of every access the devices have seen, newest first. -/
def seenBy (o : Host.Outcome State Fault Refusal) : Option (List (Word × Option Byte)) :=
  (nextOf o).map fun t => t.io.map fun e => (e.addr, e.stored)

/-- STHX `pwwp` broken off after two cycles has stored `H` and not `X` (R292). -/
theorem test_reset_inside_sthx :
    (nextOf (step (resetting 2 storing))).map (fun t => (t.mem.read 0x40, t.mem.read 0x41, t.cycles)) =
      some (0x12#8, 0x00#8, 8) := by decide

/-- The same request beyond the end of the instruction lets it finish. -/
theorem test_reset_beyond_sthx :
    (nextOf (step (resetting 4 storing))).map (fun t => (t.mem.read 0x40, t.mem.read 0x41, t.pc)) =
      some (0x12#8, 0x34#8, 0x1002#16) := by decide

/-- An interrupt that requests at the next boundary, and a reset after `k` cycles of its entry. -/
def breaking (k : Nat) (s : State) : State :=
  { asking s with schedule := [{ Inputs.quiet with resetRequest := some k, requests := [true] }] }

/-- After three cycles of the entry the return address is on the stack and `X` is not (R264, R292). -/
theorem test_reset_inside_entry :
    (nextOf (step (breaking 3 storing))).map (fun t =>
      (t.mem.read storing.sp.toNat, t.mem.read (storing.sp - 1#16).toNat,
        t.mem.read (storing.sp - 2#16).toNat, t.cycles)) =
      some (loByte storing.pc, hiByte storing.pc, storing.mem.read (storing.sp - 2#16).toNat,
        storing.cycles + 6) := by decide

/-- The next boundary's inputs ask for a reset there, and for more resets inside the reset sequence. -/
def resettingAgain (again : List Nat) (s : State) : State :=
  { s with schedule := [{ Inputs.quiet with resetRequest := some 0, resetAgain := again }] }

/-- Resets after two cycles of the reset sequence, and after one of the sequence that then begins: `v v`, `v`,
`v v p` (R290, R292). -/
theorem test_reset_inside_reset :
    (nextOf (step (resettingAgain [2, 1] storing))).map (fun t => (t.bus.map BusAccess.addr, t.cycles)) =
      some ([0xFFFE#16, 0xFFFF#16, 0xFFFE#16, 0xFFFE#16, 0xFFFF#16, 0x1000#16], storing.cycles + 6) := by decide

/-- 92 D12: a store to a marked address ends the run, with `pc` at the instruction. -/
theorem test_marked_address_faults :
    (match step { mapped .fault clear with ibuf := 0xB7#8, mem := clear.mem.write 0x1001 0x80#8 } with
      | .fault (.markedAddress pc addr) => (pc, addr) == (0x1000#16, 0x0080#16)
      | .fault (.illegalOpcode _ _) => false
      | .next _ => false
      | .refused _ => false) = true := by decide

/-- R298, R68 note 1: a device sees BSET as a read and a write, the write last. -/
theorem test_device_sees_bset :
    (nextOf (step { mapped .device clear with ibuf := 0x10#8, mem := clear.mem.write 0x1001 0x80#8 })).map
      (fun t => t.io.map fun e => (e.addr, e.stored.isSome)) =
      some [(0x0080#16, true), (0x0080#16, false)] := by decide

/-- R299: CBEQ reads its operand twice. -/
theorem test_device_sees_cbeq_twice :
    (nextOf (exec (.cbeq (.dir 0x80#8) 0x10#8) clear)).map (fun t => t.bus.map BusAccess.addr) =
      some [0x1001#16, 0x1002#16, 0x0080#16, 0x0080#16, 0x1003#16] := by decide

/-- 90 C7, R299: the dummy read of JSR `ff,X` is at the decremented `SP`. -/
theorem test_jsr_dummy_read :
    (nextOf (exec (.jsr (.ix1 0x05#8)) clear)).map (fun t => t.bus.map BusAccess.addr) =
      some [0x1001#16, 0x00FF#16, 0x00FE#16, 0x00FD#16, 0x0005#16] := by decide

/-- R51: a store to a device is the device's and changes no memory. -/
theorem test_device_takes_the_store :
    seenBy (step { mapped .device clear with
        a := 0x55#8, ibuf := 0xB7#8, mem := clear.mem.write 0x1001 0x80#8 }) =
      some [(0x0080#16, some 0x55#8)] := by decide

/-- BSET 0 `$82` at `$0080`, the code and the operand in one device. -/
def bsetInDevice : State := { mapped .device clear with pc := 0x0080#16 }

/-- R69 (a), (b): `prwp`, and the last `p` reads the register that the `w` before it wrote. -/
theorem test_fetch_sees_the_write_before_it :
    (nextOf (exec (.bset 0 0x82#8) bsetInDevice)).map (fun t => t.ibuf) =
      some (Config.deviceByte 0x0082#16
        [⟨0x0082#16, some (Config.deviceByte 0x0082#16 [⟨0x0081#16, none⟩] 4 ||| 0x01#8)⟩,
          ⟨0x0082#16, none⟩, ⟨0x0081#16, none⟩] 6) := rfl

/-- R161: `prpdp`, and `rr` is fetched after the operand at `$00:dd` is read: two cycles later than `dd`. -/
theorem test_second_byte_fetched_after_the_read :
    let s : State := { mapped .device clear with
      pc := 0x007F#16, ibuf := 0x00#8
      params := { clear.params with memMap := [⟨0x0081#16, 0x0081#16, .device⟩] } }
    (s.fetchBytes)[1]? = some 0x81#8 ∧
      (s.fetchBytes)[2]? = some (Config.deviceByte 0x0081#16 [⟨0x0081#16, none⟩] 5) := ⟨by decide, rfl⟩

theorem test_stop_refused :
    exec .stop { clear with params := { clear.params with stopBehaviour := .refuse } } =
      .refused .stopNotPermitted := rfl

/-- The run came to its end address. -/
def cameToEnd : RunEnd → Bool
  | .ended _ => true
  | .unfinished _ => false
  | .fault _ => false
  | .refused _ => false

/-! ## Witnesses: the hypotheses of each statement are met together -/

theorem test_witness_decode_of_encode : WellFormed (.jsr (.ix1 0x05#8)) := by decide
theorem test_witness_decoded_is_encoded :
    decode [0xB6#8, 0x80#8, 0x9D#8] = .ok (.lda (.mem (.dir 0x80#8)), [0x9D#8]) := by decide
theorem test_witness_undefined_first : (0xAC#8 : Byte) ∈ undefinedFirst := by decide
theorem test_witness_undefined_prefixed : (0xEC#8 : Byte) ∉ pageTwo := by decide
theorem test_witness_defined : (0x9E#8 : Byte) ∉ undefinedFirst ∧ (0xEF#8 : Byte) ∈ pageTwo := by decide
theorem test_witness_length_and_cycles :
    WellFormed (.bra 0x00#8) ∧ WellFormed (.bra 0xFE#8) ∧
      (encode (.bra 0x00#8))[0]? = (encode (.bra 0xFE#8))[0]? := by decide
theorem test_witness_length_and_cycles_prefixed :
    WellFormed (.lda (.mem (.sp1 0x00#8))) ∧
      (encode (.lda (.mem (.sp1 0x00#8))))[0]? = some 0x9E#8 ∧
      (encode (.lda (.mem (.sp1 0x00#8))))[1]? = (encode (.lda (.mem (.sp1 0x01#8))))[1]? := by decide
theorem test_witness_runs_next : RunsNext clear.sampleInputs := by
  unfold RunsNext; decide
theorem test_witness_step_decodes :
    decode ({ clear with ibuf := 0x4C#8 } : State).sampleInputs.fetchBytes =
        .ok (.inca, [0x9D#8, 0x00#8, 0x00#8]) ∧
      (nextOf (exec .inca ({ clear with ibuf := 0x4C#8 } : State))).isSome = true := by decide
theorem test_witness_placed_word :
    clear.mem.wf = true ∧ clear.params.memMap = [] ∧ clear.schedule = [] ∧
      clear.params.stopBehaviour = .asWait ∧
      decodeTableWord 8 0x4C = some .inca := by decide
theorem test_witness_undefined_opcode_stops :
    ({ clear with ibuf := 0x9E#8 } : State).ibuf = 0x9E#8 ∧
      ({ clear with ibuf := 0x9E#8 } : State).read 0x1001#16 ∉ pageTwo := by decide
theorem test_witness_reset :
    (resetting 0 clear).sampleInputs.inputs.resetRequest = some 0 ∧
      (resetting 0 clear).sampleInputs.inputs.resetAgain = [] ∧
      (resetting 0 clear).firstMarked (resetting 0 clear).sampleInputs.takeReset.bus = none := by decide
theorem test_witness_reset_undisturbed :
    ∀ again ∈ [[], [3]], ResetUndisturbed (resettingAgain again clear).sampleInputs := by
  unfold ResetUndisturbed; simp [resettingAgain, State.sampleInputs]
theorem test_witness_reset_inside_reset :
    ∀ k ∈ [0, 2], (resettingAgain [k] storing).sampleInputs.inputs.resetAgain = k :: [] ∧ k < 3 ∧
      (nextOf (resettingAgain [k] storing).sampleInputs.resetSequence).isSome = true := by decide
theorem test_witness_reset_inside :
    RunsNext (resetting 2 storing).sampleInputs ∧
      decode (resetting 2 storing).sampleInputs.fetchBytes = .ok (.sthx 0x40#8, [0x00#8, 0x00#8]) ∧
      (nextOf (exec (.sthx 0x40#8) (resetting 2 storing))).isSome = true ∧ 2 < cycleCount (.sthx 0x40#8) ∧
      (resetting 2 storing).sampleInputs.params.resetState.ram = .kept := by
  unfold RunsNext; decide
theorem test_witness_reset_inside_entry :
    ∀ k ∈ [1, 8], ∀ s ∈ [clear, { clear with run := .waiting }],
      (breaking k s).sampleInputs.inputs.resetRequest = some k ∧
      (breaking k s).sampleInputs.recognised = some ⟨0xFFF2#16, true⟩ ∧ k < 9 ∧
      (breaking k s).firstMarked
        (((breaking k s).sampleInputs.takeInterrupt ⟨0xFFF2#16, true⟩).bus.take k) = none := by decide
theorem test_witness_undisturbed : Undisturbed clear.sampleInputs 9 := by
  have e : clear.sampleInputs.inputs.resetRequest = none := by decide
  intro k h
  rw [e] at h
  exact nomatch h
theorem test_witness_unmarked :
    (nextOf (exec .inca clear)).map (fun t => clear.firstMarked t.bus) = some none ∧
      (nextOf (exec (.sta (.dir 0x80#8)) (mapped .fault clear))).map (fun t =>
        (mapped .fault clear).firstMarked t.bus) = some (some 0x0080#16) := by decide
theorem test_witness_end_of_run : cameToEnd (runTo 0x1001#16 3 { clear with ibuf := 0x9D#8 }) = true := by decide
theorem test_witness_recognised : (asking clear).recognised = some ⟨0xFFF2#16, true⟩ := by decide
theorem test_witness_recognised_by_priority :
    ({ clear with
        run := .stopped
        params := { clear.params with intSources := [⟨0xFFF0#16, false⟩, ⟨0xFFF2#16, true⟩, ⟨0xFFF4#16, true⟩] }
        inputs := { Inputs.quiet with requests := [true, true, true] } } : State).recognised =
      some ⟨0xFFF2#16, true⟩ := by decide
theorem test_witness_interrupt_entry :
    (asking clear).mem.wf = true ∧ (asking clear).sampleInputs.inputs.resetRequest ≠ some 0 ∧
      (asking clear).sampleInputs.recognised = some ⟨0xFFF2#16, true⟩ ∧ (asking clear).run = .running ∧
      ([0#16, 1#16, 2#16, 3#16, 4#16].all fun k => (asking clear).isRam ((asking clear).sp - k)) = true := by
  decide
theorem test_witness_entry_unmarked :
    (asking clear).firstMarked ((asking clear).sampleInputs.takeInterrupt ⟨0xFFF2#16, true⟩).bus = none ∧
      Undisturbed (asking clear).sampleInputs 9 := ⟨by decide, fun _ h => nomatch h⟩
theorem test_witness_halted_stays :
    ({ clear with run := .stopped } : State).run ≠ .running ∧
      ({ clear with run := .stopped } : State).sampleInputs.inputs.resetRequest ≠ some 0 ∧
      ({ clear with run := .stopped } : State).sampleInputs.recognised = none := by decide
theorem test_witness_cleared_mask_delay :
    (nextOf (exec .cli (({ small false false true false false false with
      params := { Config.defaultParams with cliDelay := true } } : State).setInhibit false))).map
      (fun t => t.inhibit) = some true := by decide
theorem test_witness_exception_frame :
    clear.mem.wf = true ∧ clear.isRam clear.sp = true ∧ clear.isRam (clear.sp - 1#16) = true ∧
      clear.isRam (clear.sp - 2#16) = true ∧ clear.isRam (clear.sp - 3#16) = true ∧
      clear.isRam (clear.sp - 4#16) = true := by decide
theorem test_witness_not_ram :
    ({ clear with params := { clear.params with memMap := [⟨0x8000#16, 0xFFFF#16, .rom⟩] } } :
      State).isRam 0x8000#16 = false := by decide
theorem test_witness_return_undoes_call :
    clear.mem.wf = true ∧ clear.isRam clear.sp = true ∧ clear.isRam (clear.sp - 1#16) = true ∧
      WellFormed (.jsr .ix) ∧ (nextOf (exec (.jsr .ix) clear)).isSome = true ∧
      (nextOf (exec (.bsr 0x10#8) clear)).isSome = true := by decide
theorem test_witness_branch_after_compare :
    (nextOf (exec (.cmp (.imm 0x05#8)) clear)).isSome = true ∧
      (nextOf (exec (.cpx (.imm 0x05#8)) clear)).isSome = true ∧
      (nextOf (exec (.sub (.imm 0x05#8)) clear)).isSome = true ∧
      (nextOf (exec (.cphx (.imm 0x8000#16)) clear)).isSome = true := by decide
theorem test_witness_branch_after_compare_memory :
    sourceValue (.mem (.dir 0x80#8)) clear = 0x81#8 ∧ source16Value (.dir 0xFE#8) clear = 0x1201#16 ∧
      clear.ccr.c = false ∧ (nextOf (exec (.sbc (.mem (.dir 0x80#8))) clear)).isSome = true ∧
      (nextOf (exec (.cphx (.dir 0xFE#8)) clear)).isSome = true := by decide
theorem test_witness_add : (Instr.add (.imm 0x01#8) = .add (.imm 0x01#8) ∧ false = false) ∨
    (Instr.add (.imm 0x01#8) = .adc (.imm 0x01#8) ∧ false = clear.ccr.c) := .inl ⟨rfl, rfl⟩
theorem test_witness_subtract : (Instr.sbc (.mem .ix) = .sub (.mem .ix) ∧ false = false) ∨
    (Instr.sbc (.mem .ix) = .sbc (.mem .ix) ∧ false = clear.ccr.c) := .inr ⟨rfl, rfl⟩
theorem test_witness_logic :
    Instr.ldx (.mem (.dir 0x80#8)) = .ldx (.mem (.dir 0x80#8)) ∧
      0x81#8 = sourceValue (.mem (.dir 0x80#8)) clear ∧ 0x00#8 = clear.a ∧ (0x81#8 : Byte) = 0x81#8 :=
  ⟨rfl, by decide, by decide, rfl⟩
theorem test_witness_compare :
    Instr.bit (.imm 0x80#8) = .bit (.imm 0x80#8) ∧
      (⟨false, clear.ccr.h, clear.ccr.i, (clear.a &&& 0x80#8).msb, decide (clear.a &&& 0x80#8 = 0#8),
        clear.ccr.c⟩ : Ccr) = ⟨false, false, false, false, true, false⟩ := ⟨rfl, by decide⟩
theorem test_witness_store : clear.mem.wf = true ∧ clear.isRam (effectiveAddress (.sp1 0x00#8) clear) = true := by
  decide
theorem test_witness_modify_rows : modifyTable.length = 9 := by decide
theorem test_witness_modify_row_wf :
    ∃ row ∈ modifyTable, (nextOf (exec (row.1 (.dir 0x80#8)) clear)).isSome = true :=
  ⟨(.asr, .asra, .asrx, asr8), .head _, by decide⟩
theorem test_witness_branch_rows : (branchTable clear).length = 20 := rfl
theorem test_witness_compare_and_branch :
    (0x81#8 = clear.read ((0x80#8 : Byte).setWidth 16)) ∧ ({ clear with a := 0x81#8 } : State).a = 0x81#8 := by
  decide
theorem test_witness_sthx_wraps :
    clear.mem.wf = true ∧ clear.isRam ((0xFF#8 : Byte).setWidth 16) = true ∧
      clear.isRam ((0xFF#8 : Byte).setWidth 16 + 1#16) = true := by decide
theorem test_witness_move :
    clear.mem.wf = true ∧ clear.read ((0x80#8 : Byte).setWidth 16) = 0x81#8 ∧
      (clear.hx + 1#16 = 0x0001#16) := by decide
theorem test_witness_divide_in_range :
    (({ clear with h := 0x04#8, x := 0x05#8 } : State).h.toNat <
      ({ clear with h := 0x04#8, x := 0x05#8 } : State).x.toNat) := by decide
theorem test_witness_divide_overflow :
    (({ clear with h := 0x05#8, x := 0x05#8 } : State).x.toNat ≤
      ({ clear with h := 0x05#8, x := 0x05#8 } : State).h.toNat) := by decide
theorem test_witness_daa_rows :
    (daaTable false 9 false 9 = some (0x00#8, false)) ∧ (daaTable false 8 false 10 = some (0x06#8, false)) ∧
      (daaTable false 9 true 3 = some (0x06#8, false)) ∧ (daaTable false 10 false 9 = some (0x60#8, true)) ∧
      (daaTable false 9 false 15 = some (0x66#8, true)) ∧ (daaTable false 15 true 3 = some (0x66#8, true)) ∧
      (daaTable true 2 false 9 = some (0x60#8, true)) ∧ (daaTable true 2 false 10 = some (0x66#8, true)) ∧
      (daaTable true 3 true 3 = some (0x66#8, true)) ∧ daaTable false 9 true 4 = none ∧
      daaTable true 3 false 0 = none := by decide
theorem test_witness_decimal_sum :
    (0x99#8 : Byte).toNat / 16 ≤ 9 ∧ (0x99#8 : Byte).toNat % 16 ≤ 9 ∧
      (nextOf (exec (.adc (.imm 0x99#8)) { small false false false false false true with a := 0x99#8 })).isSome =
        true := by decide
theorem test_witness_decimal_sum_memory :
    sourceValue (.mem (.dir 0xFE#8)) clear = 0x12#8 ∧
      (nextOf (exec (.add (.mem (.dir 0xFE#8))) { clear with a := 0x99#8 })).isSome = true := by decide
theorem test_witness_invariant : Inv clear ∧ (nextOf (step { clear with ibuf := 0x8F#8 })).isSome = true := by
  decide
theorem test_witness_invariant_halted :
    Inv { clear with run := .waiting } ∧
      Inv { clear with inhibit := true, params := { clear.params with cliDelay := true } } := by decide
theorem test_witness_memory_held :
    regionKindAt (mapped .rom clear).params.memMap (effectiveAddress (.dir 0x80#8) (mapped .rom clear)) ∈
        [none, some Config.RegionKind.rom] ∧
      memoryValue (.dir 0x80#8) (mapped .rom clear) = 0x81#8 := by decide
theorem test_witness_memory_laws :
    Memory.wf [(0x0000, 0x01#8), (0xFFFF, 0x02#8)] = true := by decide
/-- Each kind at the first and the last address of its region, and RAM just outside it. -/
theorem test_witness_region_kinds :
    ([.rom, .device, .nothing, .fault].all fun k =>
      let m := (mapped k clear).params.memMap
      regionKindAt m 0x0080#16 == some k && regionKindAt m 0x008F#16 == some k &&
        regionKindAt m 0x007F#16 == none && regionKindAt m 0x0090#16 == none) = true := by decide
theorem test_witness_rom :
    (mapped .rom clear).read 0x0080#16 = 0x81#8 ∧
      ((mapped .rom clear).write 0x0080#16 0x55#8).read 0x0080#16 = 0x81#8 := by decide
/-- A store reaches the bus at its address though nothing there takes it. -/
theorem test_witness_bus_cycles :
    ([.rom, .device, .nothing].all fun k =>
      ([.mov (.immDir 0x55#8 0x80#8), .dbnz (.dir 0x80#8) 0x10#8, .cbeq .ixPlus 0x10#8, .swi,
        .bset 7 0x80#8, .sthx 0x8F#8, .jsr .ix] : List Instr).all fun i =>
          (nextOf (exec i (mapped k clear))).isSome) = true := by decide
theorem test_witness_writers :
    (nextOf (exec (.lda (.imm 0x00#8)) clear)).isSome = true ∧ writesC (.lda (.imm 0x00#8)) = false ∧
      writesSp (.lda (.imm 0x00#8)) = false ∧ writesMemory (.lda (.imm 0x00#8)) = false ∧
      writesV .nop = false ∧ writesHalf .nop = false ∧ writesI .nop = false ∧ writesN .nop = false ∧
      writesZ .nop = false ∧ writesA .nop = false ∧ writesX .nop = false ∧ writesH .nop = false := by decide
theorem test_witness_prefetch :
    storesAfterFetch .psha = true ∧ storesAfterFetch (.sta (.ext 0x1003#16)) = false := by decide
theorem test_witness_pc_advances :
    WellFormed (.sta (.sp2 0x0001#16)) ∧ transfersControl (.sta (.sp2 0x0001#16)) = false ∧
      (nextOf (exec (.sta (.sp2 0x0001#16)) clear)).isSome = true := by decide

theorem test_witness_bit_set_and_clear :
    clear.mem.wf = true ∧ (Instr.bclr 7 0x80#8 = .bset 7 0x80#8 ∧ false = true ∨
      Instr.bclr 7 0x80#8 = .bclr 7 0x80#8 ∧ false = false) := ⟨rfl, .inr ⟨rfl, rfl⟩⟩
theorem test_witness_branch_on_bit :
    Instr.brset 0 0x80#8 0x10#8 = .brset 0 0x80#8 0x10#8 ∧
      (clear.read ((0x80#8 : Byte).setWidth 16)).getLsbD 0 = true ∧
      (clear.read ((0x80#8 : Byte).setWidth 16)).getLsbD 6 = false := ⟨rfl, by decide, by decide⟩
theorem test_witness_clear_and_test :
    (Instr.tstx, clear.a, clear.x, clear.h,
        (⟨false, clear.ccr.h, clear.ccr.i, clear.x.msb, decide (clear.x = 0#8), clear.ccr.c⟩ : Ccr), 1) ∈
      [(Instr.tstx, clear.a, clear.x, clear.h,
        (⟨false, clear.ccr.h, clear.ccr.i, clear.x.msb, decide (clear.x = 0#8), clear.ccr.c⟩ : Ccr), 1)] :=
  .head _
theorem test_witness_jumps_and_calls :
    clear.mem.wf = true ∧ clear.isRam clear.sp = true ∧ clear.isRam (clear.sp - 1#16) = true ∧
      effectiveAddress (.ext 0x2000#16) clear = 0x2000#16 ∧
      clear.pc + BitVec.ofNat 16 (modeLength (.ext 0x2000#16)) = 0x1003#16 := by decide
theorem test_witness_index_and_stack_pointer :
    (Instr.rsp, clear.hx, clear.sp ||| 0x00FF#16, 1) ∈
      [(Instr.txs, clear.hx, clear.hx - 1#16, 1), (.rsp, clear.hx, clear.sp ||| 0x00FF#16, 1)] :=
  .tail _ (.head _)
theorem test_witness_index_register_memory :
    (Source16.dir 0xFF#8 = .dir 0xFF#8 ∧
      wordOf (clear.read ((0xFF#8 : Byte).setWidth 16)) (clear.read ((0xFF#8 : Byte).setWidth 16 + 1#16)) =
        0x0100#16) := ⟨rfl, by decide⟩
theorem test_witness_push_and_pull :
    clear.mem.wf = true ∧ (Instr.pshh, clear.h) ∈ [(Instr.psha, clear.a), (.pshh, clear.h)] ∧
      (Instr.pulx, clear.a, clear.read (clear.sp + 1#16), clear.h) ∈
        [(Instr.pulx, clear.a, clear.read (clear.sp + 1#16), clear.h)] :=
  ⟨rfl, .tail _ (.head _), .head _⟩
theorem test_witness_flag_and_transfer :
    (Instr.tax, 0x97#8, [BusCycle.p], clear.a, clear.a, clear.ccr) ∈
      [(Instr.nop, 0x9D#8, [BusCycle.p], clear.a, clear.x, clear.ccr),
        (.tax, 0x97#8, [.p], clear.a, clear.a, clear.ccr)] := .tail _ (.head _)
theorem test_witness_mask_and_ccr :
    (Instr.tpa, clear.ccr.toByte, clear.ccr, clear.inhibit) ∈
      [(Instr.tpa, clear.ccr.toByte, clear.ccr, clear.inhibit)] := .head _
theorem test_witness_halt :
    (Instr.stop, RunState.stopped) ∈ [(Instr.wait, RunState.waiting), (.stop, .stopped)] := .tail _ (.head _)

end Sys2Proof.Tests
end

/-! What an instruction can do, said once for all of them (`exec_completes`): it makes bus cycles and writes
registers, and it leaves the surroundings alone (`Continues`), halts the CPU, or notes whether it cleared I. -/

namespace Sys2Proof.Machine

open Sys2Proof.Safety

/-! ### Cycles that leave the surroundings alone -/

/-- `t` comes from `s` by bus cycles and writes of registers alone. -/
def Continues (s t : State) : Prop := (∃ bus, Ran s t bus) ∧ SameSurroundings s t

namespace Continues

theorem refl (s : State) : Continues s s := ⟨⟨[], .refl s⟩, rfl, rfl, rfl, rfl, rfl⟩

section
variable {s t : State} (h : Continues s t)
include h

/-- A cycle, of which a read moves the byte its address holds (R69). -/
theorem access {c : BusAccess} (hc : c.stored = none → c.data = t.read c.addr) :
    Continues s (t.access c) := by
  obtain ⟨⟨bus, hr⟩, hs⟩ := h
  exact ⟨⟨_, hr.access hc⟩, by simpa [SameSurroundings] using hs⟩

/-- A write of registers. -/
theorem regs (a x hi ibuf : Byte) (sp pc : Word) (ccr : Ccr) :
    Continues s { t with a := a, x := x, h := hi, ibuf := ibuf, sp := sp, pc := pc, ccr := ccr } := by
  obtain ⟨⟨bus, hr⟩, hs⟩ := h
  exact ⟨⟨bus, hr.regs ⟨rfl, rfl, rfl, rfl, rfl⟩⟩, hs⟩

theorem setA (v : Byte) : Continues s (t.setA v) := h.regs v _ _ _ _ _ _
theorem setX (v : Byte) : Continues s (t.setX v) := h.regs _ v _ _ _ _ _
theorem setH (v : Byte) : Continues s (t.setH v) := h.regs _ _ v _ _ _ _
theorem setIbuf (v : Byte) : Continues s (t.setIbuf v) := h.regs _ _ _ v _ _ _
theorem setSp (v : Word) : Continues s (t.setSp v) := h.regs _ _ _ _ v _ _
theorem setPc (v : Word) : Continues s (t.setPc v) := h.regs _ _ _ _ _ v _
theorem setCcr (f : Ccr) : Continues s (t.setCcr f) := h.regs _ _ _ _ _ _ f
theorem setHx (v : Word) : Continues s (t.setHx v) := (h.setH _).setX _
theorem putA (p : Byte × Ccr) : Continues s (t.putA p) := (h.setA _).setCcr _
theorem putX (p : Byte × Ccr) : Continues s (t.putX p) := (h.setX _).setCcr _

/-! The operations of the bus. -/

theorem load (k : BusCycle) (a : Word) : Continues s (t.load k a) := h.access fun _ => rfl

theorem store {k : BusCycle} (hk : k = .w ∨ k = .s) (a : Word) (v : Byte) : Continues s (t.store k a v) :=
  h.access fun he => by rcases hk with rfl | rfl <;> exact nomatch he

theorem write (a : Word) (v : Byte) : Continues s (t.store .w a v) := h.store (.inl rfl) a v

theorem loadWord (k : BusCycle) (a : Word) : Continues s (t.loadWord k a).2 := (h.load k _).load k _

theorem writeWord (a v : Word) : Continues s (t.storeWord .w a v) := (h.write _ _).write _ _

theorem fetchByte (n : Nat) : Continues s (t.fetchByte n) := h.load .p _

theorem fetch : ∀ n : Nat, Continues s (t.fetch n)
  | 0 => h
  | n + 1 => (fetch n).fetchByte (n + 1)

theorem dummy (a : Word) : Continues s (t.dummy a) := h.load .d a

theorem dummies (a : Word) : ∀ n : Nat, Continues s (t.dummies a n)
  | 0 => h
  | n + 1 => (dummies a n).dummy a

theorem fetchThenDummy (n : Nat) : Continues s (t.fetchThenDummy n) := (h.fetch n).dummy _

theorem goto (a : Word) : Continues s (t.goto a) := ((h.load .p a).setPc a).setIbuf _

theorem advance (n : Nat) : Continues s (t.advance n) := h.goto _

theorem advanceThenDummies (n : Nat) : Continues s (t.advanceThenDummies n) := (h.advance 1).dummies _ n

theorem branch (taken : Bool) (n : Nat) (rr : Byte) : Continues s (t.branch taken n rr) := h.goto _

theorem push (v : Byte) : Continues s (t.push v) := (h.store (.inr rfl) _ v).setSp _

theorem pull : Continues s t.pull.2 := (h.setSp _).load .u _

theorem pushWord (v : Word) : Continues s (t.pushWord v) := (h.push _).push _

theorem pullWord : Continues s t.pullWord.2 := h.pull.pull

/-! The operand forms. -/

theorem beforeOperand (m : MemMode) : Continues s (beforeOperand m t) := by
  unfold Machine.beforeOperand
  split
  · exact h.fetch _
  · exact (h.fetch _).advance _

theorem afterOperand (m : MemMode) : Continues s (afterOperand m t) := by
  unfold Machine.afterOperand
  split
  · exact h.advance _
  · exact h

theorem readOperand (src : Source) : Continues s (readOperand src t) := by
  cases src with
  | imm ii => exact (h.fetch 1).advance 2
  | mem m => exact ((h.beforeOperand m).load .r _).afterOperand m

theorem readOperand16 (src : Source16) : Continues s (readOperand16 src t) := by
  cases src with
  | imm w => exact (h.fetch 2).advance 3
  | dir dd => exact ((h.fetch 1).loadWord .r _).advance 2

theorem writeOperand (m : MemMode) (v : Byte) : Continues s (writeOperand m v t) :=
  ((h.beforeOperand m).write _ v).afterOperand m

theorem rewriteOperand (m : MemMode) (v : Byte) : Continues s (rewriteOperand m v t) :=
  (((h.beforeOperand m).load .r _).write _ v).afterOperand m

theorem cbeqIncrement (m : CbeqMode) : Continues s (cbeqIncrement m t) := by
  cases m with
  | dir dd => exact h
  | ix1Plus ff => exact h.setHx _
  | ixPlus => exact h.setHx _
  | sp1 ff => exact h

end

/-! The shapes of instructions. -/

section
variable (s : State)

theorem accumulate (src : Source) (op : Byte → Ccr → Byte × Ccr) : Continues s (accumulate src op s) :=
  ((refl s).readOperand src).putA _

theorem compareWith (src : Source) (op : Byte → Ccr → Byte × Ccr) : Continues s (compareWith src op s) :=
  ((refl s).readOperand src).setCcr _

theorem storeRegister (m : MemMode) (v : Byte) : Continues s (storeRegister m v s) :=
  ((refl s).writeOperand m v).setCcr _

theorem modifyMemory (m : MemMode) (op : Byte → Ccr → Byte × Ccr) : Continues s (modifyMemory m op s) :=
  ((refl s).rewriteOperand m _).setCcr _

theorem modifyA (op : Byte → Ccr → Byte × Ccr) : Continues s (modifyA op s) := ((refl s).advance 1).putA _

theorem modifyX (op : Byte → Ccr → Byte × Ccr) : Continues s (modifyX op s) := ((refl s).advance 1).putX _

theorem rewriteDirect (dd : Byte) (change : Byte → Byte) : Continues s (rewriteDirect dd change s) :=
  ((((refl s).fetch 1).load .r _).write _ _).advance 2

theorem branchOnBit (sense : Bool) (n : Fin 8) (dd rr : Byte) : Continues s (branchOnBit sense n dd rr s) :=
  ((((((refl s).fetch 1).load .r _).fetchByte 2).dummy _).setCcr _).branch _ 3 rr

theorem simpleBranch (taken : Bool) (rr : Byte) : Continues s (simpleBranch taken rr s) :=
  ((refl s).fetchThenDummy 1).branch taken 2 rr

theorem call (fetches : Nat) (ret : Word) : Continues s (call fetches ret s) :=
  ((refl s).fetch fetches).pushWord ret

theorem takeException (ret vector : Word) : Continues s (s.takeException ret vector) := by
  obtain ⟨bus, hr, -⟩ := State.takeException_entry s ret vector
  exact ⟨⟨bus, hr⟩, by simp [SameSurroundings]⟩

end

end Continues

/-! ### The three ways an instruction ends -/

/-- The CPU has halted with its interrupts enabled, the protection of `CliDelay` as it was (R251, R253). -/
def Halted (s t : State) : Prop := t.run ≠ .running ∧ t.ccr.i = false ∧ t.inhibit = s.inhibit

/-- The CPU goes on, and under `CliDelay` the next boundary is protected just when I went from 1 to 0 (R231). -/
def MaskNoted (s t : State) : Prop :=
  t.run = s.run ∧ t.inhibit = (s.params.cliDelay && s.ccr.i && !t.ccr.i)

/-- How an instruction leaves the state it started from. -/
def Completes (s t : State) : Prop := (∃ bus, Ran s t bus) ∧ (SameSurroundings s t ∨ Halted s t ∨ MaskNoted s t)

/-- An instruction that ends in `u`, which leaves the surroundings alone. -/
theorem Continues.completes {s t u : State} (hu : Continues s u)
    (h : (.next u : Host.Outcome State Fault Refusal) = .next t) : Completes s t := by
  cases h
  exact ⟨hu.1, .inl hu.2⟩

/-- An instruction that ends in a halt. -/
theorem Continues.halt_completes {s t u : State} {r : RunState} (hu : Continues s u) (hr : r ≠ .running)
    (h : (.next (u.halt r) : Host.Outcome State Fault Refusal) = .next t) : Completes s t := by
  cases h
  obtain ⟨⟨bus, hb⟩, -, hi, -⟩ := hu
  have hhalt : Halted s (u.halt r) := ⟨by simpa using hr, by simp [Ccr.withI], by simpa using hi⟩
  exact ⟨⟨bus, hb.regs ⟨rfl, rfl, rfl, rfl, rfl⟩⟩, .inr (.inl hhalt)⟩

/-- An instruction that ends by noting whether it cleared I. -/
theorem Continues.noteMask_completes {s t u : State} (hu : Continues s u)
    (h : (.next (u.noteMask s.ccr.i) : Host.Outcome State Fault Refusal) = .next t) : Completes s t := by
  cases h
  obtain ⟨⟨bus, hb⟩, hr, -, -, -, hp⟩ := hu
  have hmask : MaskNoted s (u.noteMask s.ccr.i) := ⟨by simpa using hr, by simp [hp]⟩
  exact ⟨⟨bus, hb.noteMask _⟩, .inr (.inr hmask)⟩

theorem execMov_completes {f : MoveForm} {s t : State} (h : execMov f s = .next t) : Completes s t := by
  have fetched (n : Nat) : Continues s (s.fetch n) := (Continues.refl s).fetch n
  cases f with
  | dirDir src dst =>
    exact ((((((fetched 1).load .r _).fetchByte 2).write _ _).advance 3).setCcr _).completes h
  | dirIxPlus src => exact ((((((fetched 1).load .r _).write _ _).advance 2).setHx _).setCcr _).completes h
  | immDir ii dst => exact ((((fetched 2).write _ _).advance 3).setCcr _).completes h
  | ixPlusDir dst => exact ((((((fetched 1).load .r _).write _ _).advance 2).setHx _).setCcr _).completes h

theorem execDaa_completes {s t : State} (h : execDaa s = .next t) : Completes s t := by
  have hu : Continues s ((s.fetch 1).advance 1) := ((Continues.refl s).fetch 1).advance 1
  unfold execDaa at h
  split at h
  · exact ((hu.setA _).setCcr _).completes h
  · exact ((hu.setA _).setCcr _).completes h

theorem execDiv_completes {s t : State} (h : execDiv s = .next t) : Completes s t := by
  have hu : Continues s ((s.fetchThenDummy 1).advanceThenDummies 4) :=
    ((Continues.refl s).fetchThenDummy 1).advanceThenDummies 4
  simp only [execDiv] at h
  split at h
  · exact (((hu.setA _).setH _).setCcr _).completes h
  · exact (((hu.setA _).setH _).setCcr _).completes h

theorem execJmp_completes {m : MemMode} {s t : State} (h : execJmp m s = .next t) : Completes s t := by
  refine Continues.completes (Continues.goto ?_ _) h
  split
  · exact (Continues.refl s).fetchThenDummy _
  · exact (Continues.refl s).fetch _

theorem execJsr_completes {m : MemMode} {s t : State} (h : execJsr m s = .next t) : Completes s t := by
  refine Continues.completes (Continues.goto ?_ _) h
  split
  · exact (Continues.call s _ _).dummy _
  · exact Continues.call s _ _

theorem execStop_completes {s t : State} (h : execStop s = .next t) : Completes s t := by
  unfold execStop at h
  split at h
  · exact ((Continues.refl s).advance 1).halt_completes (by decide) h
  · exact nomatch h

theorem execRti_completes {s t : State} (h : execRti s = .next t) : Completes s t := by
  cases h
  obtain ⟨_, b, _, _, _, _, _, hran, -, -, -, -, hccr, -, -, hrun, -, -, -, -, hinhibit⟩ :=
    State.returnFromException_spec s
  exact ⟨⟨_, hran⟩, .inr (.inr ⟨hrun, by rw [hinhibit, hccr]⟩)⟩

/-- Every instruction that answers a next state completes. -/
theorem exec_completes {i : Instr} {s t : State} (h : exec i s = .next t) : Completes s t := by
  have start : Continues s s := .refl s
  cases i with
  | brset n dd rr | brclr n dd rr => exact (Continues.branchOnBit s _ n dd rr).completes h
  | bset n dd | bclr n dd => exact (Continues.rewriteDirect s dd _).completes h
  | bra rr | brn rr | bhi rr | bls rr | bcc rr | bcs rr | bne rr | beq rr | bhcc rr | bhcs rr | bpl rr | bmi rr
  | bmc rr | bms rr | bil rr | bih rr | bge rr | blt rr | bgt rr | ble rr =>
    exact (Continues.simpleBranch s _ rr).completes h
  | neg m | com m | lsr m | ror m | asr m | lsl m | rol m | dec m | inc m =>
    exact (Continues.modifyMemory s m _).completes h
  | nega | coma | lsra | rora | asra | lsla | rola | deca | inca => exact (Continues.modifyA s _).completes h
  | negx | comx | lsrx | rorx | asrx | lslx | rolx | decx | incx => exact (Continues.modifyX s _).completes h
  | tst m => exact (Continues.compareWith s (.mem m) _).completes h
  | clr m => exact ((start.writeOperand m _).setCcr _).completes h
  | tsta | tstx => exact ((start.setCcr _).advance 1).completes h
  | clra => exact (((start.setA _).setCcr _).advance 1).completes h
  | clrx => exact (((start.setX _).setCcr _).advance 1).completes h
  | clrh => exact (((start.setH _).setCcr _).advance 1).completes h
  | sub src | sbc src | and src | lda src | eor src | adc src | ora src | add src =>
    exact (Continues.accumulate s src _).completes h
  | cmp src | cpx src | bit src => exact (Continues.compareWith s src _).completes h
  | ldx src => exact ((start.readOperand src).putX _).completes h
  | sta m | stx m => exact (Continues.storeRegister s m _).completes h
  | cbeq m rr => exact (((((start.fetch _).load .r _).dummy _).cbeqIncrement m).branch _ _ rr).completes h
  | cbeqa ii rr | cbeqx ii rr => exact ((start.fetchThenDummy 2).branch _ 3 rr).completes h
  | dbnz m rr => exact ((((start.fetch _).load .r _).write _ _).branch _ _ rr).completes h
  | dbnza rr => exact (((start.fetchThenDummy 1).setA _).branch _ 2 rr).completes h
  | dbnzx rr => exact (((start.fetchThenDummy 1).setX _).branch _ 2 rr).completes h
  | sthx dd => exact ((((start.fetch 1).writeWord _ _).advance 2).setCcr _).completes h
  | ldhx src => exact (((start.readOperand16 src).setHx _).setCcr _).completes h
  | cphx src => exact ((start.readOperand16 src).setCcr _).completes h
  | mov f => exact execMov_completes h
  | ais ii => exact (((start.fetch 1).advance 2).setSp _).completes h
  | aix ii => exact (((start.fetch 1).advance 2).setHx _).completes h
  | txs => exact (((start.fetch 1).advance 1).setSp _).completes h
  | tsx => exact (((start.fetch 1).advance 1).setHx _).completes h
  | rsp => exact ((start.advance 1).setSp _).completes h
  | psha | pshx | pshh => exact ((start.advance 1).push _).completes h
  | pula => exact ((start.advance 1).pull.setA _).completes h
  | pulx => exact ((start.advance 1).pull.setX _).completes h
  | pulh => exact ((start.advance 1).pull.setH _).completes h
  | mul => exact (((((start.fetch 1).advanceThenDummies 3).setX _).setA _).setCcr _).completes h
  | div => exact execDiv_completes h
  | nsa => exact (((start.fetch 1).advanceThenDummies 1).setA _).completes h
  | daa => exact execDaa_completes h
  | tax => exact ((start.advance 1).setX _).completes h
  | txa | tpa => exact ((start.advance 1).setA _).completes h
  | clc | sec => exact ((start.advance 1).setCcr _).completes h
  | sei => exact ((start.advanceThenDummies 1).setCcr _).completes h
  | nop => exact (start.advance 1).completes h
  | cli | tap => exact ((start.advanceThenDummies 1).setCcr _).noteMask_completes h
  | bsr rr => exact ((Continues.call s 1 _).goto _).completes h
  | jmp m => exact execJmp_completes h
  | jsr m => exact execJsr_completes h
  | rts => exact ((start.fetch 1).pullWord.goto _).completes h
  | swi => exact (Continues.takeException s _ _).completes h
  | rti => exact execRti_completes h
  | wait => exact (start.advance 1).halt_completes (by decide) h
  | stop => exact execStop_completes h

end Sys2Proof.Machine

/-! Every step keeps `Inv`. The invariant has two halves: `SoundBus`, which bus cycles keep whatever they are, and
the clauses on the run state and the mask, which hold of every CPU that runs unprotected and otherwise follow from
how the instruction ended. -/

namespace Sys2Proof.Machine

open Sys2Proof.Safety

/-! ### What bus cycles keep -/

/-- The clauses of `Inv` on memory, the vectors of the parameters and the accesses of the devices. -/
def SoundBus (s : State) : Prop :=
  s.mem.wf = true ∧ s.params.wf = true ∧
    (s.io.all fun e => regionKindAt s.params.memMap e.addr == some .device) = true

/-- The clauses of `Inv` on the run state, the mask and the protection of `CliDelay`. -/
def SoundControl (s : State) : Prop :=
  (s.run ≠ .running → s.ccr.i = false ∧ s.inhibit = false) ∧
    (s.inhibit = true → s.params.cliDelay = true ∧ s.ccr.i = false)

theorem inv_iff (s : State) : Inv s ↔ SoundBus s ∧ SoundControl s := by
  unfold SoundBus SoundControl
  tauto

/-- Devices see accesses at their own addresses only (R51). -/
theorem devicesSeen_all_device (s : State) (bus : List BusAccess)
    (h : (s.io.all fun e => regionKindAt s.params.memMap e.addr == some .device) = true) :
    ((devicesSeen s bus).all fun e => regionKindAt s.params.memMap e.addr == some .device) = true := by
  simp only [devicesSeen, List.all_append, Bool.and_eq_true]
  refine ⟨List.all_eq_true.mpr fun e he => ?_, h⟩
  obtain ⟨c, hc, rfl⟩ := List.mem_map.mp (List.mem_reverse.mp he)
  exact (List.mem_filter.mp hc).2

theorem SoundBus.of_seen {s t : State} {bus : List BusAccess} (h : SoundBus s) (hm : t.mem.wf = true)
    (hp : t.params = s.params) (hi : t.io = devicesSeen s bus) : SoundBus t := by
  obtain ⟨-, hv, hd⟩ := h
  exact ⟨hm, hp ▸ hv, by rw [hp, hi]; exact devicesSeen_all_device s bus hd⟩

/-- Writes of registers do not touch what the bus shows. -/
theorem SoundBus.congr {s t : State} (h : SoundBus s) (hm : t.mem = s.mem) (hp : t.params = s.params)
    (hi : t.io = s.io) : SoundBus t :=
  h.of_seen (bus := []) (hm ▸ h.1) hp (by simpa [devicesSeen] using hi)

/-- However far a sequence of cycles has come (R292). -/
theorem SoundBus.partWay {s : State} (h : SoundBus s) (bus : List BusAccess) : SoundBus (s.partWay bus) :=
  h.of_seen (State.partWay_wf bus s h.1) (State.partWay_params bus s) (State.partWay_io bus s)

theorem SoundBus.ran {s t : State} {bus : List BusAccess} (h : SoundBus s) (hr : Ran s t bus) : SoundBus t := by
  obtain ⟨⟨hm, hi, -, -, hp⟩, -⟩ := hr
  exact (h.partWay bus).congr hm hp hi

/-- A CPU that runs unprotected meets the clauses on its control state. -/
theorem soundControl_of_running {s : State} (hr : s.run = .running) (hi : s.inhibit = false) : SoundControl s :=
  ⟨fun h => absurd hr h, fun h => by rw [hi] at h; exact nomatch h⟩

/-! ### Reset -/

/-- The reset sequence, from a state whatever its run state and mask. -/
theorem SoundBus.takeReset {s : State} (h : SoundBus s) : Inv s.takeReset := by
  obtain ⟨-, -, hrun, hinhibit, -⟩ := State.takeReset_spec s
  obtain ⟨_, _, _, hran, -⟩ := State.takeReset_ran s
  have hb : SoundBus (s.setMem s.memoryAfterReset) := ⟨State.memoryAfterReset_wf s h.1, h.2⟩
  exact (inv_iff _).mpr ⟨hb.ran hran, soundControl_of_running hrun hinhibit⟩

/-- The reset sequence with the resets that fall into it (R292). -/
theorem SoundBus.takeResets {s : State} (h : SoundBus s) (again : List Nat) : Inv (s.takeResets again) := by
  obtain ⟨c, e, hp, -, -, -, -, -, ⟨made, hi⟩, hm, -⟩ := State.takeResets_last again s
  rw [e]
  exact (h.of_seen (hm h.1) hp hi).takeReset

/-! ### Sequences -/

/-- A sequence that comes to its end, comes to the state that ends it. -/
theorem State.finish_eq_next {s t u : State} (h : s.finish t = .next u) : u = t := by
  unfold State.finish at h
  split at h
  · exact nomatch h
  · cases h; rfl

theorem SoundBus.resetSequence {s t : State} (h : SoundBus s) (ht : s.resetSequence = .next t) : Inv t := by
  rw [State.finish_eq_next ht]
  exact h.takeResets _

/-- A sequence comes to its end, or a reset falls into it after some of its cycles (R292). -/
theorem State.sequence_cases {s t u : State} (h : s.sequence t = .next u) :
    u = t ∨ ∃ k, (s.partWay (t.bus.take k)).resetSequence = .next u := by
  unfold State.sequence at h
  split at h
  · exact .inl (State.finish_eq_next h)
  · split at h
    · split at h
      · exact nomatch h
      · exact .inr ⟨_, h⟩
    · exact .inl (State.finish_eq_next h)

theorem SoundBus.sequence {s t u : State} (h : SoundBus s) (ht : Inv t) (hu : s.sequence t = .next u) : Inv u := by
  obtain rfl | ⟨k, hk⟩ := State.sequence_cases hu
  · exact ht
  · exact (h.partWay _).resetSequence hk

/-! ### Interrupts -/

/-- A protected boundary recognises nothing (R263). -/
theorem State.inhibit_of_recognised {s : State} {src : Config.IntSource} (h : s.recognised = some src) :
    s.inhibit = false := by
  by_contra hi
  rw [State.recognised_masked s (.inr (by simpa using hi))] at h
  exact nomatch h

theorem SoundBus.takeInterrupt {s : State} (h : SoundBus s) {src : Config.IntSource}
    (hr : s.recognised = some src) : Inv (s.takeInterrupt src) := by
  obtain ⟨_, hran, -⟩ := State.takeException_entry s s.pc src.vector
  have hb : SoundBus (s.takeInterrupt src) := (h.ran hran).congr (by simp) (by simp) (by simp)
  exact (inv_iff _).mpr ⟨hb, soundControl_of_running (by simp) (by simpa using State.inhibit_of_recognised hr)⟩

/-! ### Instructions -/

/-- Whichever way an instruction ends: it starts running and unprotected, a halt clears I and protects nothing, and
the protection that CLI, TAP and RTI note stands only where I is clear. -/
theorem Completes.soundControl {s t : State} (h : Completes s t) (hr : s.run = .running)
    (hi : s.inhibit = false) : SoundControl t := by
  obtain ⟨⟨bus, hran⟩, hend⟩ := h
  obtain ⟨-, -, -, -, -, hp, -⟩ := hran.spec
  obtain ⟨hrun, hinhibit, -⟩ | ⟨-, hclear, hinhibit⟩ | ⟨hrun, hinhibit⟩ := hend
  · exact soundControl_of_running (hrun.trans hr) (hinhibit.trans hi)
  · exact ⟨fun _ => ⟨hclear, hinhibit.trans hi⟩, fun hset => by rw [hinhibit, hi] at hset; exact nomatch hset⟩
  · refine ⟨fun h => absurd (hrun.trans hr) h, fun hset => ?_⟩
    simp only [hinhibit, Bool.and_eq_true, Bool.not_eq_true'] at hset
    obtain ⟨⟨hdelay, -⟩, hclear⟩ := hset
    exact ⟨hp ▸ hdelay, hclear⟩

theorem SoundBus.exec {s t : State} {i : Instr} (h : SoundBus s) (hr : s.run = .running) (hi : s.inhibit = false)
    (ht : exec i s = .next t) : Inv t := by
  have hc := exec_completes ht
  obtain ⟨bus, hran⟩ := hc.1
  exact (inv_iff t).mpr ⟨h.ran hran, hc.soundControl hr hi⟩

/-- An undefined opcode that does not fault makes the reset sequence (R277). -/
theorem SoundBus.illegalOpcode {s t : State} {bytes : List Byte} (h : SoundBus s)
    (ht : s.illegalOpcode bytes = .next t) : Inv t := by
  have hu : SoundBus (s.afterUndefined bytes) := by
    unfold State.afterUndefined
    split
    · exact h.ran ((Ran.refl s).load .p _)
    · exact h
  simp only [State.illegalOpcode] at ht
  split at ht
  · exact nomatch ht
  · split at ht
    · exact nomatch ht
    · exact hu.resetSequence ht

theorem SoundBus.runInstruction {s t : State} (h : SoundBus s) (hr : s.run = .running)
    (ht : s.runInstruction = .next t) : Inv t := by
  unfold State.runInstruction at ht
  split at ht
  · split at ht
    · rename_i u hu
      have hs : SoundBus (s.setInhibit false) := h
      exact h.sequence (hs.exec hr rfl hu) ht
    · exact nomatch ht
    · exact nomatch ht
  · exact h.illegalOpcode ht

/-! ### Steps -/

/-- What a step that answers a next state has done (R271): a reset, the entry of a recognised interrupt, an
instruction of a running CPU, or nothing. -/
theorem step_cases {s t : State} (h : step s = .next t) :
    s.sampleInputs.resetSequence = .next t ∨
      (∃ src, s.sampleInputs.recognised = some src ∧
        s.sampleInputs.sequence (s.sampleInputs.takeInterrupt src) = .next t) ∨
      (s.run = .running ∧ s.sampleInputs.runInstruction = .next t) ∨
      (s.run ≠ .running ∧ t = s.sampleInputs) := by
  by_cases hreset : s.sampleInputs.inputs.resetRequest = some 0
  · exact .inl (step_reset s hreset ▸ h)
  cases hrec : s.sampleInputs.recognised with
  | some src => exact .inr (.inl ⟨src, rfl, step_interrupt s src hreset hrec ▸ h⟩)
  | none =>
    by_cases hrun : s.run = .running
    · exact .inr (.inr (.inl ⟨hrun, step_instruction s hreset hrec hrun ▸ h⟩))
    · rw [step_halted s hreset hrec hrun] at h
      cases h
      exact .inr (.inr (.inr ⟨hrun, rfl⟩))

/-- Settles O52, by the four things a step can do. -/
theorem invariantKeptByEveryStep : Obligations.InvariantKeptByEveryStep := by
  unfold Obligations.InvariantKeptByEveryStep
  intro s t hs hstep
  obtain ⟨hbus, hcontrol⟩ := (inv_iff s).mp hs
  have hb : SoundBus s.sampleInputs := hbus.congr (by simp) (by simp) (by simp)
  obtain hreset | ⟨src, hrec, hentry⟩ | ⟨hrun, hinstr⟩ | ⟨-, rfl⟩ := step_cases hstep
  · exact hb.resetSequence hreset
  · exact hb.sequence (hb.takeInterrupt hrec) hentry
  · exact hb.runInstruction (by simpa using hrun) hinstr
  · exact (inv_iff _).mpr ⟨hb, by simpa [SoundControl] using hcontrol⟩

end Sys2Proof.Machine

/-! The flags of the arithmetic operations (R37 to R40): each flag once on numbers, then the statements of the spec's
Boolean forms, which read the numbers' carries and signs off the bits of operands and result. -/

namespace Sys2Proof.Machine

/-! ### Bits and signs of a word -/

/-- A bit of a word, read off its value. -/
theorem getLsbD_eq_decide {w : Nat} (x : BitVec w) (k : Nat) : x.getLsbD k = decide (x.toNat / 2 ^ k % 2 = 1) := by
  rw [← BitVec.testBit_toNat, Nat.testBit_eq_decide_div_mod_eq]

theorem byte_msb (x : Byte) : x.msb = decide (128 ≤ x.toNat) := BitVec.msb_eq_decide x

theorem word_msb (x : Word) : x.msb = decide (32768 ≤ x.toNat) := BitVec.msb_eq_decide x

theorem byte_getLsbD_seven (x : Byte) : x.getLsbD 7 = x.msb := by simp [BitVec.msb_eq_getLsbD_last]

theorem word_getLsbD_fifteen (x : Word) : x.getLsbD 15 = x.msb := by simp [BitVec.msb_eq_getLsbD_last]

/-- A byte as a signed number. -/
theorem byte_toInt (x : Byte) : x.toInt = if x.msb then (x.toNat : Int) - 256 else x.toNat := by
  rw [BitVec.toInt_eq_msb_cond]; rfl

/-- A word as a signed number. -/
theorem word_toInt (x : Word) : x.toInt = if x.msb then (x.toNat : Int) - 65536 else x.toNat := by
  rw [BitVec.toInt_eq_msb_cond]; rfl

/-! ### `add8` -/

section
variable (a m : Byte) (cin : Bool) (f : Ccr)

theorem add8_toNat : (add8 a m cin f).1.toNat = (a.toNat + m.toNat + cin.toNat) % 256 := by
  simp [add8]

theorem add8_c : (add8 a m cin f).2.c = decide (255 < a.toNat + m.toNat + cin.toNat) := rfl
theorem add8_h : (add8 a m cin f).2.h = decide (15 < a.toNat % 16 + m.toNat % 16 + cin.toNat) := rfl
theorem add8_v : (add8 a m cin f).2.v = (a.msb == m.msb && (add8 a m cin f).1.msb != a.msb) := rfl
theorem add8_n : (add8 a m cin f).2.n = (add8 a m cin f).1.msb := rfl
theorem add8_z : (add8 a m cin f).2.z = decide ((add8 a m cin f).1 = 0#8) := rfl
theorem add8_i : (add8 a m cin f).2.i = f.i := rfl

/-- Operands of one sign and a result of the other: the sum is out of range. -/
theorem add8_v_iff : (add8 a m cin f).2.v = true ↔
    a.toInt + m.toInt + cin.toNat < -128 ∨ 127 < a.toInt + m.toInt + cin.toNat := by
  have ha := a.isLt
  have hm := m.isLt
  have hc := Bool.toNat_le cin
  simp only [add8_v, byte_toInt, byte_msb, add8_toNat]
  by_cases h1 : 128 ≤ a.toNat <;> by_cases h2 : 128 ≤ m.toNat <;> simp [h1, h2] <;> omega

/-- A nibble or the whole byte carries when both operands have its top bit, or one has it and the result not. -/
theorem add8_carry_bits {k : Nat} (hk : k = 3 ∨ k = 7) :
    decide (2 ^ (k + 1) ≤ a.toNat % 2 ^ (k + 1) + m.toNat % 2 ^ (k + 1) + cin.toNat) =
      (a.getLsbD k && m.getLsbD k || m.getLsbD k && !(add8 a m cin f).1.getLsbD k ||
        !(add8 a m cin f).1.getLsbD k && a.getLsbD k) := by
  have hc := Bool.toNat_le cin
  simp only [getLsbD_eq_decide, add8_toNat]
  rcases hk with rfl | rfl <;> (rw [Bool.eq_iff_iff]; simp; omega)

/-- C is the carry out of bit 7. -/
theorem add8_c_bits : (add8 a m cin f).2.c = (a.getLsbD 7 && m.getLsbD 7 ||
    m.getLsbD 7 && !(add8 a m cin f).1.getLsbD 7 || !(add8 a m cin f).1.getLsbD 7 && a.getLsbD 7) := by
  have ha := a.isLt
  have hm := m.isLt
  rw [← add8_carry_bits a m cin f (.inr rfl), add8_c, Bool.eq_iff_iff]
  simp only [decide_eq_true_eq]
  omega

/-- Half-carry is the carry out of bit 3. -/
theorem add8_h_bits : (add8 a m cin f).2.h = (a.getLsbD 3 && m.getLsbD 3 ||
    m.getLsbD 3 && !(add8 a m cin f).1.getLsbD 3 || !(add8 a m cin f).1.getLsbD 3 && a.getLsbD 3) := by
  rw [← add8_carry_bits a m cin f (.inl rfl), add8_h]
  rfl

theorem add8_v_bits : (add8 a m cin f).2.v = (a.getLsbD 7 && m.getLsbD 7 && !(add8 a m cin f).1.getLsbD 7 ||
    !a.getLsbD 7 && !m.getLsbD 7 && (add8 a m cin f).1.getLsbD 7) := by
  simp only [add8_v, byte_getLsbD_seven]
  cases a.msb <;> cases m.msb <;> cases (add8 a m cin f).1.msb <;> rfl

end

/-- Settles O21. -/
theorem addFlags : Obligations.AddFlags := by
  unfold Obligations.AddFlags
  intro a m cin f
  refine ⟨add8_toNat a m cin f, ?carry, ?half, add8_v_iff a m cin f, ?negative, ?zero, add8_i a m cin f,
    add8_c_bits a m cin f, add8_h_bits a m cin f, add8_v_bits a m cin f⟩
  case carry => rw [add8_c, decide_eq_true_eq]; omega
  case half => rw [add8_h, decide_eq_true_eq]
  case negative => rw [add8_n, byte_getLsbD_seven]
  case zero => rw [add8_z, decide_eq_true_eq]

/-! ### `sub8` and `sub16` -/

section
variable (a m : Byte) (bin : Bool) (f : Ccr)

theorem sub8_toNat : (sub8 a m bin f).1.toNat = (a.toNat + 512 - m.toNat - bin.toNat) % 256 := by
  have ha := a.isLt
  have hm := m.isLt
  cases bin <;> simp [sub8, BitVec.toNat_sub] <;> omega

theorem sub8_c : (sub8 a m bin f).2.c = decide (a.toNat < m.toNat + bin.toNat) := rfl
theorem sub8_v : (sub8 a m bin f).2.v = (a.msb != m.msb && (sub8 a m bin f).1.msb != a.msb) := rfl
theorem sub8_n : (sub8 a m bin f).2.n = (sub8 a m bin f).1.msb := rfl
theorem sub8_z : (sub8 a m bin f).2.z = decide ((sub8 a m bin f).1 = 0#8) := rfl
theorem sub8_h : (sub8 a m bin f).2.h = f.h := rfl
theorem sub8_i : (sub8 a m bin f).2.i = f.i := rfl

/-- Operands of different signs and a result with the subtrahend's: the difference is out of range. -/
theorem sub8_v_iff : (sub8 a m bin f).2.v = true ↔
    a.toInt - m.toInt - bin.toNat < -128 ∨ 127 < a.toInt - m.toInt - bin.toNat := by
  have ha := a.isLt
  have hm := m.isLt
  have hc := Bool.toNat_le bin
  simp only [sub8_v, byte_toInt, byte_msb, sub8_toNat]
  by_cases h1 : 128 ≤ a.toNat <;> by_cases h2 : 128 ≤ m.toNat <;> simp [h1, h2] <;> omega

/-- C is the borrow out of bit 7. -/
theorem sub8_c_bits : (sub8 a m bin f).2.c = (!a.getLsbD 7 && m.getLsbD 7 ||
    m.getLsbD 7 && (sub8 a m bin f).1.getLsbD 7 || (sub8 a m bin f).1.getLsbD 7 && !a.getLsbD 7) := by
  have ha := a.isLt
  have hm := m.isLt
  have hc := Bool.toNat_le bin
  simp only [sub8_c, getLsbD_eq_decide, sub8_toNat]
  rw [Bool.eq_iff_iff]
  simp
  omega

theorem sub8_v_bits : (sub8 a m bin f).2.v = (a.getLsbD 7 && !m.getLsbD 7 && !(sub8 a m bin f).1.getLsbD 7 ||
    !a.getLsbD 7 && m.getLsbD 7 && (sub8 a m bin f).1.getLsbD 7) := by
  simp only [sub8_v, byte_getLsbD_seven]
  cases a.msb <;> cases m.msb <;> cases (sub8 a m bin f).1.msb <;> rfl

end

section
variable (a m : Word) (f : Ccr)

theorem sub16_toNat : (sub16 a m f).1.toNat = (65536 - m.toNat + a.toNat) % 65536 := BitVec.toNat_sub a m

theorem sub16_c : (sub16 a m f).2.c = decide (a.toNat < m.toNat) := rfl
theorem sub16_v : (sub16 a m f).2.v = (a.msb != m.msb && (sub16 a m f).1.msb != a.msb) := rfl
theorem sub16_n : (sub16 a m f).2.n = (sub16 a m f).1.msb := rfl
theorem sub16_z : (sub16 a m f).2.z = decide ((sub16 a m f).1 = 0#16) := rfl
theorem sub16_h : (sub16 a m f).2.h = f.h := rfl
theorem sub16_i : (sub16 a m f).2.i = f.i := rfl

theorem sub16_v_iff : (sub16 a m f).2.v = true ↔ a.toInt - m.toInt < -32768 ∨ 32767 < a.toInt - m.toInt := by
  have ha := a.isLt
  have hm := m.isLt
  simp only [sub16_v, word_toInt, word_msb, sub16_toNat]
  by_cases h1 : 32768 ≤ a.toNat <;> by_cases h2 : 32768 ≤ m.toNat <;> simp [h1, h2] <;> omega

end

/-- Settles O22. -/
theorem subtractFlags : Obligations.SubtractFlags := by
  unfold Obligations.SubtractFlags
  refine ⟨fun a m bin f => ?bytes, fun a m f => ?words⟩
  case bytes =>
    refine ⟨sub8_toNat a m bin f, ?_, sub8_v_iff a m bin f, ?_, ?_, sub8_h a m bin f, sub8_i a m bin f,
      sub8_c_bits a m bin f, sub8_v_bits a m bin f⟩
    · rw [sub8_c, decide_eq_true_eq]
    · rw [sub8_n, byte_getLsbD_seven]
    · rw [sub8_z, decide_eq_true_eq]
  case words =>
    refine ⟨rfl, ?_, sub16_v_iff a m f, ?_, ?_, ?_, sub16_h a m f, sub16_i a m f⟩
    · rw [sub16_c, decide_eq_true_eq]
    · simp only [sub16_v, word_getLsbD_fifteen]
    · rw [sub16_n, word_getLsbD_fifteen]
    · rw [sub16_z, decide_eq_true_eq]


/-! ### Shifts and rotates -/

/-- `r` is `v` moved one place to the left or to the right, with `fill` in the place that falls free. -/
def ShiftedBits (left fill : Bool) (v r : Byte) : Prop :=
  ∀ k, k < 8 → r.getLsbD k =
    if left then (if k = 0 then fill else v.getLsbD (k - 1)) else if k = 7 then fill else v.getLsbD (k + 1)

theorem shiftedBits_left (v : Byte) (fill : Bool) :
    ShiftedBits true fill v (v <<< 1 ||| BitVec.ofNat 8 fill.toNat) := by
  intro k hk
  cases k with
  | zero => cases fill <;> simp
  | succ k => cases fill <;> simp [BitVec.getLsbD_one] <;> omega

theorem shiftedBits_right (v : Byte) (fill : Bool) :
    ShiftedBits false fill v (v >>> 1 ||| BitVec.ofNat 8 fill.toNat <<< 7) := by
  intro k hk
  have free : (BitVec.ofNat 8 fill.toNat <<< 7).getLsbD k = (decide (k = 7) && fill) := by
    by_cases h : k = 7
    · subst h; cases fill <;> rfl
    · have : k < 7 := by omega
      simp [h, this]
  rw [BitVec.getLsbD_or, BitVec.getLsbD_ushiftRight, free, Nat.add_comm]
  by_cases h : k = 7 <;> simp [h]

/-- An arithmetic shift fills with the sign. -/
theorem shiftedBits_arithmetic (v : Byte) : ShiftedBits false (v.getLsbD 7) v (v.sshiftRight 1) := by
  intro k hk
  rw [byte_getLsbD_seven, BitVec.getLsbD_sshiftRight, Nat.add_comm 1]
  by_cases h : k = 7
  · simp [h]
  · have : k + 1 < 8 := by omega
    simp [h, this]
    omega

/-- What R40 says of a shift with result and flags `p`: the bits, the bit that falls out in C, V = N xor C. -/
def ShiftSpec (p : Byte × Ccr) (left out fill : Bool) (v : Byte) (f : Ccr) : Prop :=
  ShiftedBits left fill v p.1 ∧ p.2.c = out ∧ p.2.n = p.1.getLsbD 7 ∧ (p.2.z = true ↔ p.1 = 0#8) ∧
    p.2.v = (p.1.getLsbD 7 ^^ out) ∧ p.2.h = f.h ∧ p.2.i = f.i

/-- Every shift ends in `shiftResult`, which sets the flags; only the bits differ. -/
theorem shiftSpec_shiftResult {left fill : Bool} {v r : Byte} (h : ShiftedBits left fill v r) (out : Bool) (f : Ccr) :
    ShiftSpec (shiftResult r out f) left out fill v f := by
  refine ⟨h, rfl, (byte_getLsbD_seven r).symm, decide_eq_true_iff, ?_, rfl, rfl⟩
  rw [byte_getLsbD_seven]
  rfl

theorem lsl8_spec (v : Byte) (f : Ccr) : ShiftSpec (lsl8 v f) true (v.getLsbD 7) false v f := by
  refine shiftSpec_shiftResult ?_ _ f
  simpa using shiftedBits_left v false

theorem rol8_spec (v : Byte) (f : Ccr) : ShiftSpec (rol8 v f) true (v.getLsbD 7) f.c v f :=
  shiftSpec_shiftResult (shiftedBits_left v f.c) _ f

theorem lsr8_spec (v : Byte) (f : Ccr) : ShiftSpec (lsr8 v f) false (v.getLsbD 0) false v f := by
  refine shiftSpec_shiftResult ?_ _ f
  simpa using shiftedBits_right v false

theorem ror8_spec (v : Byte) (f : Ccr) : ShiftSpec (ror8 v f) false (v.getLsbD 0) f.c v f :=
  shiftSpec_shiftResult (shiftedBits_right v f.c) _ f

theorem asr8_spec (v : Byte) (f : Ccr) : ShiftSpec (asr8 v f) false (v.getLsbD 0) (v.getLsbD 7) v f :=
  shiftSpec_shiftResult (shiftedBits_arithmetic v) _ f

/-! ### COM, NEG, DEC and INC -/

theorem byte_eq_iff (x y : Byte) : x = y ↔ x.toNat = y.toNat := BitVec.toNat_inj.symm

theorem com8_toNat (v : Byte) (f : Ccr) : (com8 v f).1.toNat = 255 - v.toNat := by
  have h : (com8 v f).1 = ~~~v := BitVec.xor_allOnes
  rw [h, BitVec.toNat_not]

theorem com8_flags (v : Byte) (f : Ccr) :
    (com8 v f).2 = ⟨false, f.h, f.i, !v.getLsbD 7, decide (v = 0xFF#8), true⟩ := by
  have hv := v.isLt
  have hr := com8_toNat v f
  have hf : (com8 v f).2 = ⟨false, f.h, f.i, (com8 v f).1.msb, decide ((com8 v f).1 = 0#8), true⟩ := rfl
  have hn : (com8 v f).1.msb = !v.getLsbD 7 := by
    rw [byte_getLsbD_seven, byte_msb, byte_msb, hr, ← decide_not, decide_eq_decide]
    omega
  have hz : (com8 v f).1 = 0#8 ↔ v = 0xFF#8 := by
    rw [byte_eq_iff, byte_eq_iff, hr]
    simp
    omega
  rw [hf, hn, decide_eq_decide.mpr hz]

theorem neg8_toNat (v : Byte) (f : Ccr) : (neg8 v f).1.toNat = (256 - v.toNat) % 256 := by
  have hv := v.isLt
  have hr := sub8_toNat 0#8 v false f
  rw [neg8, hr]
  simp
  omega

theorem neg8_flags (v : Byte) (f : Ccr) :
    (neg8 v f).2 = ⟨decide (v = 0x80#8), f.h, f.i, (neg8 v f).1.getLsbD 7, decide (v = 0#8), decide (v ≠ 0#8)⟩ := by
  have hv := v.isLt
  have hr := neg8_toNat v f
  have hf : (neg8 v f).2 = ⟨(neg8 v f).2.v, f.h, f.i, (neg8 v f).1.msb, decide ((neg8 v f).1 = 0#8),
    decide (0 < v.toNat)⟩ := rfl
  have ho : (neg8 v f).2.v = decide (v = 0x80#8) := by
    rw [neg8, sub8_v, byte_msb, byte_msb, byte_msb, ← neg8, hr, Bool.eq_iff_iff]
    simp [byte_eq_iff]
    omega
  have hz : (neg8 v f).1 = 0#8 ↔ v = 0#8 := by
    rw [byte_eq_iff, byte_eq_iff, hr]
    simp
    omega
  have hc : 0 < v.toNat ↔ v ≠ 0#8 := by
    rw [ne_eq, byte_eq_iff]
    simp
    omega
  rw [hf, ho, byte_getLsbD_seven, decide_eq_decide.mpr hz, decide_eq_decide.mpr hc]

theorem dec8_toNat (v : Byte) (f : Ccr) : (dec8 v f).1.toNat = (v.toNat + 255) % 256 := by
  simp [dec8, BitVec.toNat_sub, Nat.add_comm]

theorem dec8_flags (v : Byte) (f : Ccr) :
    (dec8 v f).2 = ⟨decide (v = 0x80#8), f.h, f.i, (dec8 v f).1.getLsbD 7, decide (v = 1#8), f.c⟩ := by
  have hf : (dec8 v f).2 = ⟨decide (v = 0x80#8), f.h, f.i, (dec8 v f).1.msb, decide ((dec8 v f).1 = 0#8), f.c⟩ := rfl
  have hz : (dec8 v f).1 = 0#8 ↔ v = 1#8 := by
    have hv := v.isLt
    rw [byte_eq_iff, byte_eq_iff, dec8_toNat]
    simp
    omega
  rw [hf, byte_getLsbD_seven, decide_eq_decide.mpr hz]

theorem inc8_toNat (v : Byte) (f : Ccr) : (inc8 v f).1.toNat = (v.toNat + 1) % 256 := by
  simp [inc8]

theorem inc8_flags (v : Byte) (f : Ccr) :
    (inc8 v f).2 = ⟨decide (v = 0x7F#8), f.h, f.i, (inc8 v f).1.getLsbD 7, decide (v = 0xFF#8), f.c⟩ := by
  have hf : (inc8 v f).2 = ⟨decide (v = 0x7F#8), f.h, f.i, (inc8 v f).1.msb, decide ((inc8 v f).1 = 0#8), f.c⟩ := rfl
  have hz : (inc8 v f).1 = 0#8 ↔ v = 0xFF#8 := by
    have hv := v.isLt
    rw [byte_eq_iff, byte_eq_iff, inc8_toNat]
    simp
    omega
  rw [hf, byte_getLsbD_seven, decide_eq_decide.mpr hz]

/-- Settles O23. -/
theorem modifyOperations : Obligations.ModifyOperations := by
  unfold Obligations.ModifyOperations
  intro v f
  refine ⟨fun p out fill left hp => ?shifts, ⟨com8_toNat v f, com8_flags v f⟩, ⟨neg8_toNat v f, neg8_flags v f⟩,
    ⟨dec8_toNat v f, dec8_flags v f⟩, ⟨inc8_toNat v f, inc8_flags v f⟩⟩
  case shifts =>
    have hspec : ShiftSpec p left out fill v f := by
      simp only [List.mem_cons, List.not_mem_nil, or_false, Prod.mk.injEq] at hp
      obtain ⟨rfl, rfl, rfl, rfl⟩ | ⟨rfl, rfl, rfl, rfl⟩ | ⟨rfl, rfl, rfl, rfl⟩ | ⟨rfl, rfl, rfl, rfl⟩ |
        ⟨rfl, rfl, rfl, rfl⟩ := hp
      · exact lsl8_spec v f
      · exact rol8_spec v f
      · exact lsr8_spec v f
      · exact ror8_spec v f
      · exact asr8_spec v f
    exact hspec

end Sys2Proof.Machine

/-! The bus cycles of every instruction and the registers it may write, said once for all instructions (`exec_does`):
the kinds of its cycles are its cycle code, the last program fetch filled the instruction buffer, and only the listed
registers changed. -/

namespace Sys2Proof.Machine

open Sys2Proof.Safety

/-! ### What an instruction does, cycle by cycle -/

/-- The last program fetch among `bus` moves `d` from `a`. -/
def LastFetch (bus : List BusAccess) (a : Word) (d : Byte) : Prop :=
  ∃ before after : List BusAccess, bus = before ++ ⟨.p, a, d⟩ :: after ∧ ∀ c ∈ after, c.kind ≠ .p

theorem LastFetch.append {bus : List BusAccess} {a : Word} {d : Byte} (h : LastFetch bus a d) {c : BusAccess}
    (hc : c.kind ≠ .p) : LastFetch (bus ++ [c]) a d := by
  obtain ⟨before, after, rfl, hafter⟩ := h
  refine ⟨before, after ++ [c], by simp, fun e he => ?_⟩
  obtain he | he := List.mem_append.mp he
  · exact hafter e he
  · rwa [List.mem_singleton.mp he]

theorem lastFetch_concat (bus : List BusAccess) (a : Word) (d : Byte) : LastFetch (bus ++ [⟨.p, a, d⟩]) a d :=
  ⟨bus, [], rfl, fun _ h => nomatch h⟩

/-- Which of the registers, and whether the run state, may have been written. -/
structure Written where
  a : Bool := false
  x : Bool := false
  h : Bool := false
  sp : Bool := false
  run : Bool := false

/-- What has not been written is as before, and so are the inputs. -/
structure Keeps (w : Written) (s t : State) : Prop where
  a : w.a = false → t.a = s.a
  x : w.x = false → t.x = s.x
  h : w.h = false → t.h = s.h
  sp : w.sp = false → t.sp = s.sp
  run : w.run = false → t.run = s.run
  inputs : t.inputs = s.inputs
  schedule : t.schedule = s.schedule

/-- From `s` to `t` cycles of the kinds `code` are made, and registers of `w` (and flags) are written. When `fetched`,
the last program fetch was that of the next opcode: it is what `pc` and the instruction buffer have (R30). -/
structure Does (w : Written) (code : List BusCycle) (fetched : Bool) (s t : State) : Prop where
  cycles : ∃ bus, Ran s t bus ∧ bus.map BusAccess.kind = code ∧ (fetched = true → LastFetch bus t.pc t.ibuf)
  keeps : Keeps w s t

/-- The kinds of the cycles before those of the operand in memory: the program bytes, and in the forms that store or
read late the next opcode (R72). -/
def codeBeforeOperand (m : MemMode) : List BusCycle :=
  List.replicate (modeLength m - 1) BusCycle.p ++ if operandBeforeFetch m then [] else [.p]

/-- The kinds of the cycles after those of the operand. -/
def codeAfterOperand (m : MemMode) : List BusCycle := if operandBeforeFetch m then [.p] else []

theorem memCode_eq (k : BusCycle) (m : MemMode) :
    memCode k m = codeBeforeOperand m ++ [k] ++ codeAfterOperand m := by
  cases m <;> rfl

theorem rmwCode_eq (m : MemMode) :
    rmwCode m = codeBeforeOperand m ++ [BusCycle.r] ++ [BusCycle.w] ++ codeAfterOperand m := by
  cases m <;> rfl

namespace Does

theorem refl (s : State) : Does {} [] false s s :=
  ⟨⟨[], .refl s, rfl, nofun⟩, fun _ => rfl, fun _ => rfl, fun _ => rfl, fun _ => rfl, fun _ => rfl, rfl, rfl⟩

section
variable {w : Written} {code : List BusCycle} {fetched : Bool} {s t : State} (h : Does w code fetched s t)
include h

/-- Cycles that a register write follows. -/
theorem regs {w' : Written} {u : State} (hu : SameBus u t) (hpc : u.pc = t.pc) (hibuf : u.ibuf = t.ibuf)
    (hk : Keeps w' s u) : Does w' code fetched s u := by
  obtain ⟨⟨bus, hran, hcode, hlast⟩, -⟩ := h
  exact ⟨⟨bus, hran.regs hu, hcode, by rwa [hpc, hibuf]⟩, hk⟩

theorem setA (v : Byte) : Does { w with a := true } code fetched s (t.setA v) :=
  h.regs ⟨rfl, rfl, rfl, rfl, rfl⟩ rfl rfl { h.keeps with a := nofun }
theorem setX (v : Byte) : Does { w with x := true } code fetched s (t.setX v) :=
  h.regs ⟨rfl, rfl, rfl, rfl, rfl⟩ rfl rfl { h.keeps with x := nofun }
theorem setH (v : Byte) : Does { w with h := true } code fetched s (t.setH v) :=
  h.regs ⟨rfl, rfl, rfl, rfl, rfl⟩ rfl rfl { h.keeps with h := nofun }
theorem setSp (v : Word) : Does { w with sp := true } code fetched s (t.setSp v) :=
  h.regs ⟨rfl, rfl, rfl, rfl, rfl⟩ rfl rfl { h.keeps with sp := nofun }
theorem setRun (r : RunState) : Does { w with run := true } code fetched s (t.setRun r) :=
  h.regs ⟨rfl, rfl, rfl, rfl, rfl⟩ rfl rfl { h.keeps with run := nofun }
theorem setCcr (f : Ccr) : Does w code fetched s (t.setCcr f) :=
  h.regs ⟨rfl, rfl, rfl, rfl, rfl⟩ rfl rfl { h.keeps with }
theorem noteMask (before : Bool) : Does w code fetched s (t.noteMask before) :=
  h.regs ⟨rfl, rfl, rfl, rfl, rfl⟩ rfl rfl { h.keeps with }
theorem setHx (v : Word) : Does { w with h := true, x := true } code fetched s (t.setHx v) := (h.setH _).setX _
theorem putA (p : Byte × Ccr) : Does { w with a := true } code fetched s (t.putA p) := (h.setA _).setCcr _
theorem putX (p : Byte × Ccr) : Does { w with x := true } code fetched s (t.putX p) := (h.setX _).setCcr _
theorem halt (r : RunState) : Does { w with run := true } code fetched s (t.halt r) := (h.setCcr _).setRun r

/-! Bus cycles. -/

theorem keeps_access (c : BusAccess) : Keeps w s (t.access c) := by
  obtain ⟨-, ha, hx, hh, hsp, hrun, hi, hs⟩ := h
  constructor <;> simpa

/-- A cycle that is no program fetch. -/
theorem access (c : BusAccess) (hp : c.kind ≠ .p) (hc : c.stored = none → c.data = t.read c.addr) :
    Does w (code ++ [c.kind]) fetched s (t.access c) := by
  refine ⟨?_, h.keeps_access c⟩
  obtain ⟨⟨bus, hran, rfl, hlast⟩, -⟩ := h
  exact ⟨bus ++ [c], hran.access hc, by simp, fun hf => by simpa using (hlast hf).append hp⟩

/-- A cycle that reads, and is no program fetch. -/
theorem load (k : BusCycle) (hp : k ≠ .p) (a : Word) : Does w (code ++ [k]) fetched s (t.load k a) :=
  h.access ⟨k, a, t.read a⟩ hp fun _ => rfl

theorem read (a : Word) : Does w (code ++ [BusCycle.r]) fetched s (t.load .r a) := h.load .r nofun a
theorem vector (a : Word) : Does w (code ++ [BusCycle.v]) fetched s (t.load .v a) := h.load .v nofun a
theorem dummy (a : Word) : Does w (code ++ [BusCycle.d]) fetched s (t.dummy a) := h.load .d nofun a
theorem write (a : Word) (v : Byte) : Does w (code ++ [BusCycle.w]) fetched s (t.store .w a v) :=
  h.access ⟨.w, a, v⟩ nofun nofun

theorem push (v : Byte) : Does { w with sp := true } (code ++ [BusCycle.s]) fetched s (t.push v) :=
  (h.access ⟨.s, t.sp, v⟩ nofun nofun).setSp _

theorem pull : Does { w with sp := true } (code ++ [BusCycle.u]) fetched s t.pull.2 :=
  (h.setSp _).load .u nofun _

/-! Words, a byte at a time; the codes stay in the order in which the bytes move. -/

theorem readWord (a : Word) : Does w (code ++ [BusCycle.r] ++ [BusCycle.r]) fetched s (t.loadWord .r a).2 :=
  (h.read _).read _
theorem vectorWord (a : Word) : Does w (code ++ [BusCycle.v] ++ [BusCycle.v]) fetched s (t.loadWord .v a).2 :=
  (h.vector _).vector _
theorem writeWord (a v : Word) : Does w (code ++ [BusCycle.w] ++ [BusCycle.w]) fetched s (t.storeWord .w a v) :=
  (h.write _ _).write _ _
theorem pushWord (v : Word) :
    Does { w with sp := true } (code ++ [BusCycle.s] ++ [BusCycle.s]) fetched s (t.pushWord v) :=
  (h.push _).push _
theorem pullWord : Does { w with sp := true } (code ++ [BusCycle.u] ++ [BusCycle.u]) fetched s t.pullWord.2 :=
  h.pull.pull

theorem dummies (a : Word) : ∀ n : Nat, Does w (code ++ List.replicate n BusCycle.d) fetched s (t.dummies a n)
  | 0 => by rwa [List.replicate_zero, List.append_nil]
  | n + 1 => by
    rw [List.replicate_succ', ← List.append_assoc]
    exact (dummies a n).dummy a

/-- A program fetch that is not that of the next opcode. -/
theorem fetchByte (n : Nat) : Does w (code ++ [BusCycle.p]) false s (t.fetchByte n) := by
  refine ⟨?_, h.keeps_access ⟨.p, t.pc + BitVec.ofNat 16 n, _⟩⟩
  obtain ⟨⟨bus, hran, rfl, -⟩, -⟩ := h
  exact ⟨_, hran.load .p (t.pc + BitVec.ofNat 16 n), by simp, nofun⟩

/-- The fetch of the next opcode. -/
theorem goto (a : Word) : Does w (code ++ [BusCycle.p]) true s (t.goto a) := by
  refine ⟨?_, { h.keeps_access ⟨.p, a, t.read a⟩ with }⟩
  obtain ⟨⟨bus, hran, rfl, -⟩, -⟩ := h
  exact ⟨_, hran.goto a, by simp, fun _ => by simpa using lastFetch_concat bus a (t.read a)⟩

theorem advance (n : Nat) : Does w (code ++ [BusCycle.p]) true s (t.advance n) := h.goto _

theorem branch (taken : Bool) (n : Nat) (rr : Byte) : Does w (code ++ [BusCycle.p]) true s (t.branch taken n rr) :=
  h.goto _

theorem advanceThenDummies (n : Nat) :
    Does w (code ++ [BusCycle.p] ++ List.replicate n BusCycle.d) true s (t.advanceThenDummies n) :=
  (h.advance 1).dummies _ n

end

section
variable {w : Written} {code : List BusCycle} {s t : State} (h : Does w code false s t)
include h

theorem fetch : ∀ n : Nat, Does w (code ++ List.replicate n BusCycle.p) false s (t.fetch n)
  | 0 => by rwa [List.replicate_zero, List.append_nil]
  | n + 1 => by
    rw [List.replicate_succ', ← List.append_assoc]
    exact (fetch n).fetchByte (n + 1)

theorem fetchThenDummy (n : Nat) :
    Does w (code ++ List.replicate n BusCycle.p ++ [BusCycle.d]) false s (t.fetchThenDummy n) :=
  (h.fetch n).dummy _

end

/-! The operand's side of the fetch of the next opcode (R72). -/

theorem beforeOperand (s : State) (m : MemMode) :
    Does {} (codeBeforeOperand m) (!operandBeforeFetch m) s (beforeOperand m s) := by
  unfold Machine.beforeOperand codeBeforeOperand
  cases operandBeforeFetch m
  · exact ((refl s).fetch _).advance _
  · exact (List.append_nil _).symm ▸ (refl s).fetch _

theorem afterOperand {w : Written} {code : List BusCycle} {s t : State} (m : MemMode)
    (h : Does w code (!operandBeforeFetch m) s t) :
    Does w (code ++ codeAfterOperand m) true s (afterOperand m t) := by
  unfold Machine.afterOperand codeAfterOperand
  cases hm : operandBeforeFetch m
  · rw [hm] at h
    exact (List.append_nil code).symm ▸ h
  · exact h.advance _

/-! The shapes of instructions, from the state they start in. -/

section
variable (s : State)

theorem readOperand (src : Source) : Does {} (sourceCode src) true s (readOperand src s) := by
  cases src with
  | imm ii => exact ((refl s).fetch 1).advance 2
  | mem m =>
    rw [sourceCode, memCode_eq]
    exact ((beforeOperand s m).read _).afterOperand m

theorem readOperand16 (src : Source16) : Does {} (source16Code src) true s (readOperand16 src s) := by
  cases src with
  | imm w => exact ((refl s).fetch 2).advance 3
  | dir dd => exact (((refl s).fetch 1).readWord _).advance 2

theorem writeOperand (m : MemMode) (v : Byte) : Does {} (memCode .w m) true s (writeOperand m v s) := by
  rw [memCode_eq]
  exact ((beforeOperand s m).write _ v).afterOperand m

theorem rewriteOperand (m : MemMode) (v : Byte) : Does {} (rmwCode m) true s (rewriteOperand m v s) := by
  rw [rmwCode_eq]
  exact (((beforeOperand s m).read _).write _ v).afterOperand m

theorem accumulate (src : Source) (op : Byte → Ccr → Byte × Ccr) :
    Does { a := true } (sourceCode src) true s (accumulate src op s) := (readOperand s src).putA _

theorem compareWith (src : Source) (op : Byte → Ccr → Byte × Ccr) :
    Does {} (sourceCode src) true s (compareWith src op s) := (readOperand s src).setCcr _

theorem storeRegister (m : MemMode) (v : Byte) : Does {} (memCode .w m) true s (storeRegister m v s) :=
  (writeOperand s m v).setCcr _

theorem modifyMemory (m : MemMode) (op : Byte → Ccr → Byte × Ccr) :
    Does {} (rmwCode m) true s (modifyMemory m op s) := (rewriteOperand s m _).setCcr _

theorem modifyA (op : Byte → Ccr → Byte × Ccr) : Does { a := true } [.p] true s (modifyA op s) :=
  ((refl s).advance 1).putA _

theorem modifyX (op : Byte → Ccr → Byte × Ccr) : Does { x := true } [.p] true s (modifyX op s) :=
  ((refl s).advance 1).putX _

theorem rewriteDirect (dd : Byte) (change : Byte → Byte) :
    Does {} [.p, .r, .w, .p] true s (rewriteDirect dd change s) :=
  ((((refl s).fetch 1).read _).write _ _).advance 2

theorem branchOnBit (sense : Bool) (n : Fin 8) (dd rr : Byte) :
    Does {} [.p, .r, .p, .d, .p] true s (branchOnBit sense n dd rr s) :=
  ((((((refl s).fetch 1).read _).fetchByte 2).dummy _).setCcr _).branch _ 3 rr

theorem simpleBranch (taken : Bool) (rr : Byte) : Does {} [.p, .d, .p] true s (simpleBranch taken rr s) :=
  ((refl s).fetchThenDummy 1).branch taken 2 rr

theorem takeException (ret vector : Word) :
    Does { sp := true } entryCode true s (s.takeException ret vector) :=
  ((((((((refl s).fetch 1).pushWord ret).push s.x).push s.a).push s.ccr.toByte).setCcr _).vectorWord _).goto _

theorem returnFromException :
    Does { a := true, x := true, sp := true } [.p, .u, .u, .u, .u, .u, .p] true s s.returnFromException := by
  have pulled := ((refl s).fetch 1).pull.pull.pull.pullWord
  exact ((((pulled.setCcr _).setA _).setX _).noteMask _).goto _

end

end Does

/-! ### Every instruction -/

/-- The registers of R21 to R23, and the run state for the two instructions that halt. -/
def written (i : Instr) : Written where
  a := writesA i
  x := writesX i
  h := writesH i
  sp := writesSp i
  run := match i with
    | .wait | .stop => true
    | _ => false

/-- The instruction does what its cycle code and the lists of writers say. -/
abbrev DoesInstr (i : Instr) (s t : State) : Prop := Does (written i) (cycleCode i) true s t

theorem Does.next {w : Written} {code : List BusCycle} {s t u : State} (hu : Does w code true s u)
    (h : (.next u : Host.Outcome State Fault Refusal) = .next t) : Does w code true s t := by
  cases h
  exact hu

theorem execMov_does {f : MoveForm} {s t : State} (h : execMov f s = .next t) : DoesInstr (.mov f) s t := by
  have start : Does {} [] false s s := .refl s
  cases f with
  | dirDir src dst => exact ((((((start.fetch 1).read _).fetchByte 2).write _ _).advance 3).setCcr _).next h
  | dirIxPlus src => exact ((((((start.fetch 1).read _).write _ _).advance 2).setHx _).setCcr _).next h
  | immDir ii dst => exact ((((start.fetch 2).write _ _).advance 3).setCcr _).next h
  | ixPlusDir dst => exact ((((((start.fetch 1).read _).write _ _).advance 2).setHx _).setCcr _).next h

theorem execCbeq_does {m : CbeqMode} {rr : Byte} {s t : State} (h : execCbeq m rr s = .next t) :
    DoesInstr (.cbeq m rr) s t := by
  have start : Does {} [] false s s := .refl s
  cases m with
  | dir _ | sp1 _ => exact ((((start.fetch _).read _).dummy _).branch _ _ rr).next h
  | ix1Plus _ | ixPlus => exact (((((start.fetch _).read _).dummy _).setHx _).branch _ _ rr).next h

theorem execDbnz_does {m : MemMode} {rr : Byte} {s t : State} (h : execDbnz m rr s = .next t) :
    DoesInstr (.dbnz m rr) s t := by
  have hu := (((Does.refl s).fetch (modeLength m)).read (effectiveAddress m s)).write (effectiveAddress m s)
    (dbnzValue m s - 1#8)
  cases m <;> exact (hu.branch _ _ rr).next h

theorem execDaa_does {s t : State} (h : execDaa s = .next t) : DoesInstr .daa s t := by
  have hu := ((Does.refl s).fetch 1).advance 1
  unfold execDaa at h
  split at h
  · exact ((hu.setA _).setCcr _).next h
  · exact ((hu.setA _).setCcr _).next h

theorem execDiv_does {s t : State} (h : execDiv s = .next t) : DoesInstr .div s t := by
  have hu := ((Does.refl s).fetchThenDummy 1).advanceThenDummies 4
  simp only [execDiv] at h
  split at h
  · exact (((hu.setA _).setH _).setCcr _).next h
  · exact (((hu.setA _).setH _).setCcr _).next h

theorem execJmp_does {m : MemMode} {s t : State} (h : execJmp m s = .next t) : DoesInstr (.jmp m) s t := by
  have start : Does {} [] false s s := .refl s
  cases m with
  | dir _ | ext _ | ix => exact ((start.fetch _).goto _).next h
  | ix2 _ | ix1 _ | sp2 _ | sp1 _ => exact ((start.fetchThenDummy _).goto _).next h

theorem execJsr_does {m : MemMode} {s t : State} (h : execJsr m s = .next t) : DoesInstr (.jsr m) s t := by
  have start : Does {} [] false s s := .refl s
  cases m with
  | dir _ | ext _ | ix => exact (((start.fetch _).pushWord _).goto _).next h
  | ix2 _ | ix1 _ | sp2 _ | sp1 _ => exact ((((start.fetch _).pushWord _).dummy _).goto _).next h

theorem execStop_does {s t : State} (h : execStop s = .next t) : DoesInstr .stop s t := by
  unfold execStop at h
  split at h
  · exact (((Does.refl s).advance 1).halt _).next h
  · exact nomatch h

/-- Every instruction that answers a next state makes the cycles of its code and writes its registers only. -/
theorem exec_does {i : Instr} {s t : State} (h : exec i s = .next t) : DoesInstr i s t := by
  have start : Does {} [] false s s := .refl s
  cases i with
  | brset n dd rr | brclr n dd rr => exact (Does.branchOnBit s _ n dd rr).next h
  | bset n dd | bclr n dd => exact (Does.rewriteDirect s dd _).next h
  | bra rr | brn rr | bhi rr | bls rr | bcc rr | bcs rr | bne rr | beq rr | bhcc rr | bhcs rr | bpl rr | bmi rr
  | bmc rr | bms rr | bil rr | bih rr | bge rr | blt rr | bgt rr | ble rr => exact (Does.simpleBranch s _ rr).next h
  | neg m | com m | lsr m | ror m | asr m | lsl m | rol m | dec m | inc m => exact (Does.modifyMemory s m _).next h
  | nega | coma | lsra | rora | asra | lsla | rola | deca | inca => exact (Does.modifyA s _).next h
  | negx | comx | lsrx | rorx | asrx | lslx | rolx | decx | incx => exact (Does.modifyX s _).next h
  | tst m => exact (Does.compareWith s (.mem m) _).next h
  | clr m => exact ((Does.writeOperand s m _).setCcr _).next h
  | tsta | tstx => exact ((start.setCcr _).advance 1).next h
  | clra => exact (((start.setA _).setCcr _).advance 1).next h
  | clrx => exact (((start.setX _).setCcr _).advance 1).next h
  | clrh => exact (((start.setH _).setCcr _).advance 1).next h
  | sub src | sbc src | and src | lda src | eor src | adc src | ora src | add src =>
    exact (Does.accumulate s src _).next h
  | cmp src | cpx src | bit src => exact (Does.compareWith s src _).next h
  | ldx src => exact ((Does.readOperand s src).putX _).next h
  | sta m | stx m => exact (Does.storeRegister s m _).next h
  | cbeq m rr => exact execCbeq_does h
  | cbeqa ii rr | cbeqx ii rr => exact ((start.fetchThenDummy 2).branch _ 3 rr).next h
  | dbnz m rr => exact execDbnz_does h
  | dbnza rr => exact (((start.fetchThenDummy 1).setA _).branch _ 2 rr).next h
  | dbnzx rr => exact (((start.fetchThenDummy 1).setX _).branch _ 2 rr).next h
  | sthx dd => exact ((((start.fetch 1).writeWord _ _).advance 2).setCcr _).next h
  | ldhx src => exact (((Does.readOperand16 s src).setHx _).setCcr _).next h
  | cphx src => exact ((Does.readOperand16 s src).setCcr _).next h
  | mov f => exact execMov_does h
  | ais ii => exact (((start.fetch 1).advance 2).setSp _).next h
  | aix ii => exact (((start.fetch 1).advance 2).setHx _).next h
  | txs => exact (((start.fetch 1).advance 1).setSp _).next h
  | tsx => exact (((start.fetch 1).advance 1).setHx _).next h
  | rsp => exact ((start.advance 1).setSp _).next h
  | psha | pshx | pshh => exact ((start.advance 1).push _).next h
  | pula => exact ((start.advance 1).pull.setA _).next h
  | pulx => exact ((start.advance 1).pull.setX _).next h
  | pulh => exact ((start.advance 1).pull.setH _).next h
  | mul => exact (((((start.fetch 1).advanceThenDummies 3).setX _).setA _).setCcr _).next h
  | div => exact execDiv_does h
  | nsa => exact (((start.fetch 1).advanceThenDummies 1).setA _).next h
  | daa => exact execDaa_does h
  | tax => exact ((start.advance 1).setX _).next h
  | txa | tpa => exact ((start.advance 1).setA _).next h
  | clc | sec => exact ((start.advance 1).setCcr _).next h
  | sei => exact ((start.advanceThenDummies 1).setCcr _).next h
  | nop => exact (start.advance 1).next h
  | cli | tap => exact (((start.advanceThenDummies 1).setCcr _).noteMask _).next h
  | bsr rr => exact (((start.fetch 1).pushWord _).goto _).next h
  | jmp m => exact execJmp_does h
  | jsr m => exact execJsr_does h
  | rts => exact ((start.fetch 1).pullWord.goto _).next h
  | swi => exact (Does.takeException s _ _).next h
  | rti => exact (Does.returnFromException s).next h
  | wait => exact ((start.advance 1).halt _).next h
  | stop => exact execStop_does h

end Sys2Proof.Machine

/-! Who writes the registers and memory, and what the prefetched opcode is (R30, R72). Both follow from `exec_does`:
which cycles of an instruction store, and on which side of the last program fetch, is read off its cycle code. -/

namespace Sys2Proof.Machine

open Sys2Proof.Safety

/-! ### Cycles that store -/

/-- The kinds of cycle that store (R61 to R67). -/
def BusCycle.stores : BusCycle → Bool
  | .w | .s => true
  | .p | .r | .u | .v | .d => false

theorem BusAccess.stored_eq_none {c : BusAccess} (h : c.kind.stores = false) : c.stored = none := by
  obtain ⟨k, a, d⟩ := c
  cases k with
  | w | s => exact nomatch h
  | p | r | u | v | d => rfl

/-- Cycles none of which stores leave memory. -/
theorem State.partWay_mem_of_reads : ∀ (bus : List BusAccess) (s : State),
    (bus.map BusAccess.kind).any BusCycle.stores = false → (s.partWay bus).mem = s.mem
  | [], _, _ => rfl
  | c :: bus, s, h => by
    rw [List.map_cons, List.any_cons, Bool.or_eq_false_iff] at h
    rw [State.partWay_cons, State.partWay_mem_of_reads bus _ h.2,
      State.access_mem_of_read s (BusAccess.stored_eq_none h.1)]

/-- Cycles leave memory where there is no RAM (92 D12; log entries 13 and 24). -/
theorem State.partWay_memRead_not_ram {b : Word} : ∀ (bus : List BusAccess) (s : State), s.isRam b = false →
    (s.partWay bus).mem.read b.toNat = s.mem.read b.toNat
  | [], _, _ => rfl
  | c :: bus, s, h => by
    rw [State.partWay_cons, State.partWay_memRead_not_ram bus _ (by simpa using h),
      State.access_memRead_not_ram s c h]

/-! ### Stores in the cycle codes -/

/-- An instruction that does not write memory has no cycle that stores (R68). -/
theorem cycleCode_reads (i : Instr) : writesMemory i = false → (cycleCode i).any BusCycle.stores = false := by
  cases i with
  | tst m | jmp m => intro _; cases m <;> rfl
  | cbeq m rr => intro _; cases m <;> rfl
  | sub src | cmp src | sbc src | cpx src | and src | bit src | lda src | eor src | adc src | ora src | add src
  | ldx src =>
    intro _
    rcases src with ii | m
    · rfl
    · cases m <;> rfl
  | ldhx src | cphx src => intro _; cases src <;> rfl
  | neg | com | lsr | ror | asr | lsl | rol | dec | inc | clr | dbnz | bset | bclr | mov | sta | stx | sthx | psha
  | pshx | pshh | bsr | jsr | swi => exact nofun
  | _ => exact fun _ => rfl

/-- The kinds of the cycles after the last program fetch. -/
def lateCycles (code : List BusCycle) : List BusCycle := code.rtakeWhile (· != .p)

/-- The kinds of the cycles up to and including the last program fetch. -/
def earlyCycles (code : List BusCycle) : List BusCycle := code.rdropWhile (· != .p)

theorem lateCycles_split {before after : List BusCycle} (h : ∀ k ∈ after, k ≠ .p) :
    lateCycles (before ++ .p :: after) = after := by
  have hr : ∀ k ∈ after.reverse, (k != .p) = true := by simpa using h
  simp [lateCycles, List.rtakeWhile, List.takeWhile_append_of_pos hr]

theorem earlyCycles_split {before after : List BusCycle} (h : ∀ k ∈ after, k ≠ .p) :
    earlyCycles (before ++ .p :: after) = before ++ [.p] := by
  have hr : ∀ k ∈ after.reverse, (k != .p) = true := by simpa using h
  simp [earlyCycles, List.rdropWhile, List.dropWhile_append_of_pos hr]

/-- The cycles on the side of the last program fetch where the instruction does not store (R72). -/
def quietSide (i : Instr) : List BusCycle :=
  if storesAfterFetch i then earlyCycles (cycleCode i) else lateCycles (cycleCode i)

/-- An instruction stores before the last program fetch or after it, as `storesAfterFetch` says (R72). -/
theorem quietSide_reads (i : Instr) : (quietSide i).any BusCycle.stores = false := by
  cases i with
  | neg m | com m | lsr m | ror m | asr m | lsl m | rol m | dec m | inc m | tst m | clr m | sta m | stx m | jmp m
  | jsr m => cases m <;> rfl
  | cbeq m rr | dbnz m rr => cases m <;> rfl
  | sub src | cmp src | sbc src | cpx src | and src | bit src | lda src | eor src | adc src | ora src | add src
  | ldx src =>
    rcases src with ii | m
    · rfl
    · cases m <;> rfl
  | ldhx src | cphx src => cases src <;> rfl
  | mov f => cases f <;> rfl
  | _ => rfl

theorem written_run {i : Instr} (hwait : i ≠ .wait) (hstop : i ≠ .stop) : (written i).run = false := by
  cases i with
  | wait => exact absurd rfl hwait
  | stop => exact absurd rfl hstop
  | _ => rfl

/-! ### The statements -/

/-- Settles O57: what an instruction changes is its listed registers, and what its cycles change. -/
theorem writersOfRegistersAndMemory : Obligations.WritersOfRegistersAndMemory := by
  unfold Obligations.WritersOfRegistersAndMemory
  intro i s t h
  obtain ⟨⟨bus, hran, hcode, -⟩, ha, hx, hh, hsp, hrun, hinputs, hschedule⟩ := exec_does h
  have hmem : t.mem = (s.partWay bus).mem := hran.1.1
  obtain ⟨-, -, hcycles, hio, -, hparams, -⟩ := hran.spec
  refine ⟨ha, hx, hh, hsp, fun hw b => ?memory, fun hwait hstop => hrun (written_run hwait hstop), hinputs, hschedule,
    hparams, ?cycles, ⟨_, hio⟩, fun b hb => ?discarded⟩
  case memory => rw [hmem, State.partWay_mem_of_reads bus s (hcode ▸ cycleCode_reads i hw)]
  case cycles => rw [hcycles, cycleCount, ← hcode, List.length_map]
  case discarded => rw [hmem, State.partWay_memRead_not_ram bus s hb]

/-- Settles O58: the byte the last program fetch found, with the stores all on one side of it. -/
theorem prefetchedOpcode : Obligations.PrefetchedOpcode := by
  unfold Obligations.PrefetchedOpcode
  intro i s t h
  obtain ⟨bus, hran, hcode, hlast⟩ := (exec_does h).cycles
  obtain ⟨before, after, rfl, hafter⟩ := hlast rfl
  have hfetched : t.ibuf = (s.partWay before).read t.pc := by
    simpa using hran.2 before.length ⟨.p, t.pc, t.ibuf⟩ (by simp) rfl
  refine ⟨hran.opcode hafter, fun hheld => ?_⟩
  have hquiet := quietSide_reads i
  have hkinds : ∀ k ∈ after.map BusAccess.kind, k ≠ .p := by simpa using hafter
  rw [quietSide, ← hcode, List.map_append, List.map_cons, lateCycles_split hkinds, earlyCycles_split hkinds] at hquiet
  rw [hfetched, State.read_held _ (by simpa using hheld)]
  split at hquiet
  case isTrue hlate =>
    rw [List.any_append, Bool.or_eq_false_iff] at hquiet
    rw [if_pos hlate, State.partWay_mem_of_reads before s hquiet.1]
  case isFalse hearly =>
    have hmem : t.mem = ((s.partWay before).access ⟨.p, t.pc, t.ibuf⟩ |>.partWay after).mem := by
      rw [hran.1.1, State.partWay_append, State.partWay_cons]
    rw [if_neg hearly, hmem, State.partWay_mem_of_reads after _ hquiet, State.access_mem_of_read _ rfl]

end Sys2Proof.Machine

/-! Where an instruction that does not transfer control goes on: past its own object code (R25, R53). -/

namespace Sys2Proof.Machine

open Sys2Proof.Safety

/-! ### Lengths -/

theorem length_encodeMem (k : Byte) (m : MemMode) : (encodeMem k m).length = modeLength m := by
  cases m <;> rfl

theorem length_encodeSource (k : Byte) (src : Source) : (encodeSource k src).length = sourceLength src := by
  cases src with
  | imm ii => rfl
  | mem m => exact length_encodeMem k m

theorem length_encodeRmw (k : Byte) {m : MemMode} (h : m.isRmw = true) : (encodeRmw k m).length = modeLength m := by
  cases m with
  | dir _ | ix1 _ | ix | sp1 _ => rfl
  | ext _ | ix2 _ | sp2 _ => exact nomatch h

theorem length_encode_ldhx (src : Source16) : (encode (.ldhx src)).length = source16Length src := by
  cases src <;> rfl

theorem length_encode_cphx (src : Source16) : (encode (.cphx src)).length = source16Length src := by
  cases src <;> rfl

/-! ### `pc` of the shapes -/

section
variable (s : State)

@[simp] theorem accumulate_pc (src : Source) (op : Byte → Ccr → Byte × Ccr) :
    (accumulate src op s).pc = s.pc + BitVec.ofNat 16 (sourceLength src) := by simp [accumulate]
@[simp] theorem compareWith_pc (src : Source) (op : Byte → Ccr → Byte × Ccr) :
    (compareWith src op s).pc = s.pc + BitVec.ofNat 16 (sourceLength src) := by simp [compareWith]
@[simp] theorem storeRegister_pc (m : MemMode) (v : Byte) :
    (storeRegister m v s).pc = s.pc + BitVec.ofNat 16 (modeLength m) := by simp [storeRegister]
@[simp] theorem modifyMemory_pc (m : MemMode) (op : Byte → Ccr → Byte × Ccr) :
    (modifyMemory m op s).pc = s.pc + BitVec.ofNat 16 (modeLength m) := by simp [modifyMemory]
@[simp] theorem modifyA_pc (op : Byte → Ccr → Byte × Ccr) : (modifyA op s).pc = s.pc + 1#16 := by simp [modifyA]
@[simp] theorem modifyX_pc (op : Byte → Ccr → Byte × Ccr) : (modifyX op s).pc = s.pc + 1#16 := by simp [modifyX]
@[simp] theorem rewriteDirect_pc (dd : Byte) (change : Byte → Byte) :
    (rewriteDirect dd change s).pc = s.pc + 2#16 := by simp [rewriteDirect]

end

theorem execMov_pc {f : MoveForm} {s t : State} (h : execMov f s = .next t) :
    t.pc = s.pc + BitVec.ofNat 16 (encode (.mov f)).length := by
  cases f with
  | dirDir _ _ | dirIxPlus _ | immDir _ _ | ixPlusDir _ => cases h; simp [encode]

theorem execDaa_pc {s t : State} (h : execDaa s = .next t) : t.pc = s.pc + 1#16 := by
  unfold execDaa at h
  split at h <;> (cases h; simp)

theorem execDiv_pc {s t : State} (h : execDiv s = .next t) : t.pc = s.pc + 1#16 := by
  simp only [execDiv] at h
  split at h <;> (cases h; simp)

theorem execStop_pc {s t : State} (h : execStop s = .next t) : t.pc = s.pc + 1#16 := by
  unfold execStop at h
  split at h
  · cases h; simp
  · exact nomatch h

/-- Settles O59. -/
theorem pcAdvancesByLength : Obligations.PcAdvancesByLength := by
  unfold Obligations.PcAdvancesByLength
  intro i s t hwf htransfer h
  cases i with
  | bset n dd | bclr n dd => cases h; exact rewriteDirect_pc s dd _
  | neg m | com m | lsr m | ror m | asr m | lsl m | rol m | dec m | inc m =>
    cases h; exact length_encodeRmw _ hwf ▸ modifyMemory_pc s m _
  | tst m => cases h; exact length_encodeRmw _ hwf ▸ compareWith_pc s (.mem m) _
  | clr m => cases h; exact length_encodeRmw _ hwf ▸ writeOperand_pc m _ s
  | nega | coma | lsra | rora | asra | lsla | rola | deca | inca => cases h; exact modifyA_pc s _
  | negx | comx | lsrx | rorx | asrx | lslx | rolx | decx | incx => cases h; exact modifyX_pc s _
  | sub src | sbc src | and src | lda src | eor src | adc src | ora src | add src =>
    cases h; exact length_encodeSource _ src ▸ accumulate_pc s src _
  | cmp src | cpx src | bit src => cases h; exact length_encodeSource _ src ▸ compareWith_pc s src _
  | ldx src => cases h; exact length_encodeSource _ src ▸ readOperand_pc src s
  | sta m | stx m => cases h; exact length_encodeMem _ m ▸ storeRegister_pc s m _
  | ldhx src => cases h; exact length_encode_ldhx src ▸ readOperand16_pc src s
  | cphx src => cases h; exact length_encode_cphx src ▸ readOperand16_pc src s
  | mov f => exact execMov_pc h
  | div => exact execDiv_pc h
  | daa => exact execDaa_pc h
  | stop => exact execStop_pc h
  | sthx | clra | clrx | clrh | tsta | tstx | mul | nsa | ais | aix | txs | tsx | tap | tpa | pula | psha | pulx
  | pshx | pulh | pshh | wait | tax | clc | sec | cli | sei | rsp | nop | txa => cases h; simp [encode]
  | brset | brclr | bra | brn | bhi | bls | bcc | bcs | bne | beq | bhcc | bhcs | bpl | bmi | bmc | bms | bil | bih
  | cbeq | dbnz | cbeqa | dbnza | cbeqx | dbnzx | rti | rts | swi | bge | blt | bgt | ble | bsr | jmp | jsr =>
    exact nomatch htransfer

end Sys2Proof.Machine

/-! Which flags an instruction may change: only those of which R28 lists it as a writer (`exec_flags`). -/

namespace Sys2Proof.Machine

open Sys2Proof.Safety

/-- The flags `g` are those of `f` but for the flags of which `i` is a writer (R28). -/
structure FlagsKept (i : Instr) (f g : Ccr) : Prop where
  v : writesV i = false → g.v = f.v
  half : writesHalf i = false → g.h = f.h
  mask : writesI i = false → g.i = f.i
  n : writesN i = false → g.n = f.n
  z : writesZ i = false → g.z = f.z
  c : writesC i = false → g.c = f.c

theorem FlagsKept.of_eq {i : Instr} {f g : Ccr} (h : g = f) : FlagsKept i f g := by
  subst h
  exact ⟨fun _ => rfl, fun _ => rfl, fun _ => rfl, fun _ => rfl, fun _ => rfl, fun _ => rfl⟩

section
variable {i : Instr} {f g : Ccr}

/-- The writers of V, N and Z: loads, stores, logic, DEC, INC, CLR, TST. -/
theorem FlagsKept.of_vnz (hi : writesNz i = true) (hg : g.h = f.h ∧ g.i = f.i ∧ g.c = f.c) : FlagsKept i f g := by
  obtain ⟨hh, hmask, hc⟩ := hg
  constructor <;> simp [writesV, writesN, writesZ, hi, hh, hmask, hc]

/-- The writers of V, N, Z and C: subtraction, shifts, COM, NEG. -/
theorem FlagsKept.of_vnzc (hi : writesNz i = true) (hc : writesC i = true) (hg : g.h = f.h ∧ g.i = f.i) :
    FlagsKept i f g := by
  obtain ⟨hh, hmask⟩ := hg
  constructor <;> simp [writesV, writesN, writesZ, hi, hc, hh, hmask]

/-- The writers of C alone. -/
theorem FlagsKept.of_c (hc : writesC i = true) (hg : g = f.withC g.c) : FlagsKept i f g := by
  rw [hg]
  constructor <;> simp [Ccr.withC, hc]

/-- The writers of I alone. -/
theorem FlagsKept.of_i (hi : writesI i = true) (hg : g = f.withI g.i) : FlagsKept i f g := by
  rw [hg]
  constructor <;> simp [Ccr.withI, hi]

end

/-- An instruction that ends in `u`. -/
theorem FlagsKept.next {i : Instr} {s t u : State} (h : (.next u : Host.Outcome State Fault Refusal) = .next t)
    (hu : FlagsKept i s.ccr u.ccr) : FlagsKept i s.ccr t.ccr := by
  cases h
  exact hu

theorem execDaa_flags {s t : State} (h : execDaa s = .next t) : FlagsKept .daa s.ccr t.ccr := by
  unfold execDaa at h
  split at h <;> (cases h; exact .of_vnzc rfl rfl ⟨rfl, rfl⟩)

theorem execDiv_flags {s t : State} (h : execDiv s = .next t) : FlagsKept .div s.ccr t.ccr := by
  simp only [execDiv] at h
  split at h <;>
    (cases h; exact ⟨fun _ => rfl, fun _ => rfl, fun _ => rfl, fun _ => rfl, nofun, nofun⟩)

theorem execMov_flags {f : MoveForm} {s t : State} (h : execMov f s = .next t) :
    FlagsKept (.mov f) s.ccr t.ccr := by
  cases f with
  | dirDir _ _ | dirIxPlus _ | immDir _ _ | ixPlusDir _ => cases h; exact .of_vnz rfl ⟨rfl, rfl, rfl⟩

theorem execJmp_ccr {m : MemMode} {s t : State} (h : execJmp m s = .next t) : t.ccr = s.ccr := by
  cases h
  rw [State.goto_ccr]
  split <;> simp

theorem execJsr_ccr {m : MemMode} {s t : State} (h : execJsr m s = .next t) : t.ccr = s.ccr := by
  cases h
  rw [State.goto_ccr]
  split <;> simp [call]

theorem execCbeq_ccr {m : CbeqMode} {rr : Byte} {s t : State} (h : execCbeq m rr s = .next t) : t.ccr = s.ccr := by
  cases h
  rw [State.branch_ccr]
  cases m <;> simp [cbeqIncrement]

theorem execStop_flags {s t : State} (h : execStop s = .next t) : FlagsKept .stop s.ccr t.ccr := by
  unfold execStop at h
  split at h
  · cases h; exact .of_i rfl (by simp [Ccr.withI])
  · exact nomatch h

/-- No instruction changes a flag that it is not listed for (R28). -/
theorem exec_flags {i : Instr} {s t : State} (h : exec i s = .next t) : FlagsKept i s.ccr t.ccr := by
  cases i with
  | neg m | com m | lsr m | ror m | asr m | lsl m | rol m | nega | coma | lsra | rora | asra | lsla | rola | negx | comx
  | lsrx | rorx | asrx | lslx | rolx | sub src | cmp src | sbc src | cpx src | cphx src =>
    exact .next h (.of_vnzc rfl rfl ⟨rfl, rfl⟩)
  | dec m | inc m | tst m | clr m | deca | inca | decx | incx | tsta | tstx | clra | clrx | clrh | and src | bit src
  | lda src | eor src | ora src | ldx src | sta m | stx m | ldhx src | sthx dd =>
    exact .next h (.of_vnz rfl ⟨rfl, rfl, rfl⟩)
  | mov f => exact execMov_flags h
  | adc src | add src => exact .next h ⟨nofun, nofun, fun _ => rfl, nofun, nofun, nofun⟩
  | mul => exact .next h ⟨fun _ => rfl, nofun, fun _ => rfl, fun _ => rfl, fun _ => rfl, nofun⟩
  | div => exact execDiv_flags h
  | daa => exact execDaa_flags h
  | tap | rti => exact ⟨nofun, nofun, nofun, nofun, nofun, nofun⟩
  | brset n dd rr | brclr n dd rr => exact .next h (.of_c rfl (by simp [branchOnBit, Ccr.withC]))
  | clc | sec => exact .next h (.of_c rfl rfl)
  | cli | sei => exact .next h (.of_i rfl rfl)
  | swi => exact .next h (.of_i rfl (by simp [Ccr.withI]))
  | wait => exact .next h (.of_i rfl (by simp [Ccr.withI]))
  | stop => exact execStop_flags h
  | bset n dd | bclr n dd => exact .next h (.of_eq (by simp [rewriteDirect]))
  | bra rr | brn rr | bhi rr | bls rr | bcc rr | bcs rr | bne rr | beq rr | bhcc rr | bhcs rr | bpl rr | bmi rr
  | bmc rr | bms rr | bil rr | bih rr | bge rr | blt rr | bgt rr | ble rr =>
    exact .next h (.of_eq (by simp [simpleBranch]))
  | cbeq m rr => exact .of_eq (execCbeq_ccr h)
  | bsr rr => exact .next h (.of_eq (by simp [call]))
  | jmp m => exact .of_eq (execJmp_ccr h)
  | jsr m => exact .of_eq (execJsr_ccr h)
  | dbnz | cbeqa | cbeqx | dbnza | dbnzx | nsa | rts | tpa | pula | psha | pulx | pshx | pulh | pshh | txs | tsx | tax
  | rsp | nop | txa | ais | aix => exact .next h (.of_eq (by simp))

/-- Settles O56. -/
theorem writersOfFlags : Obligations.WritersOfFlags := by
  unfold Obligations.WritersOfFlags
  intro i s t h
  obtain ⟨hv, hhalf, hi, hn, hz, hc⟩ := exec_flags h
  exact ⟨hv, hhalf, hi, hn, hz, hc⟩

end Sys2Proof.Machine

/-! The CCR as a byte (R27, R29), a halted CPU that nothing wakes (R273, R274), the state after reset (R290, R291). -/

namespace Sys2Proof.Machine

open Sys2Proof.Safety

/-! ### The CCR as a byte -/

/-- Bit by bit, `V:1:1:H:I:N:Z:C` (R26, R27). -/
theorem Ccr.toByte_bits (f : Ccr) :
    [7, 6, 5, 4, 3, 2, 1, 0].map f.toByte.getLsbD = [f.v, true, true, f.h, f.i, f.n, f.z, f.c] := by
  obtain ⟨v, h, i, n, z, c⟩ := f
  revert v h i n z c
  decide

theorem State.returnFromException_ccr (s : State) :
    s.returnFromException.ccr = Ccr.ofByte ((s.fetch 1).read (s.sp + 1#16)) := by
  simp [State.returnFromException]

/-- The last byte of the entry frame is the CCR as it was (R264, R267). -/
theorem State.takeException_read_ccr (s : State) (ret vec : Word) (hm : s.mem.wf = true)
    (hr : s.isRam (s.sp - 4#16) = true) : (s.takeException ret vec).read (s.sp - 4#16) = s.ccr.toByte := by
  rw [State.read_ram _ (by simpa using hr), State.takeException_memRead s hm, if_pos ⟨rfl, hr⟩]

/-- Settles O24. -/
theorem ccrAsByte : Obligations.CcrAsByte := by
  unfold Obligations.CcrAsByte
  refine ⟨Ccr.toByte_bits, fun _ => rfl, fun s => ⟨_, rfl, ?tpa⟩, fun s => ⟨_, rfl, ?tap⟩, fun s => ⟨_, rfl, ?rti⟩,
    State.takeException_read_ccr, fun _ => rfl, State.takeInterrupt_mem⟩
  case tpa => rw [State.setA_a]
  case tap => rw [State.noteMask_ccr, State.setCcr_ccr]
  case rti => exact State.returnFromException_ccr s

/-! ### Halt and reset -/

theorem State.sampleInputs_levels (s : State) (h : s.schedule = []) :
    s.sampleInputs.inputs = s.inputs ∧ s.sampleInputs.schedule = [] := by
  simp [State.sampleInputs, h]

theorem State.sampleInputs_next (s : State) {e : Inputs} {es : List Inputs} (h : s.schedule = e :: es) :
    s.sampleInputs.inputs = e ∧ s.sampleInputs.schedule = es := by
  simp [State.sampleInputs, h]

/-- Settles O15: the step is the sampling of the inputs. -/
theorem haltedMachineStays : Obligations.HaltedMachineStays := by
  unfold Obligations.HaltedMachineStays
  intro s hrun hreset hrec
  refine ⟨s.sampleInputs, step_halted s hreset hrec hrun, by simp [Registers], ?_⟩
  exact ⟨by simp, by simp, by simp, by simp, by simp, by simp, by simp, by simp, by simp, by simp,
    s.sampleInputs_levels, fun _ _ => s.sampleInputs_next⟩

theorem inv_reset : Inv State.reset := by
  refine ⟨State.reset_mem_wf, ?vectors, fun hrun => absurd rfl hrun, nofun, rfl⟩
  case vectors => decide

/-- Settles O53. -/
theorem stateAfterReset : Obligations.StateAfterReset := by
  unfold Obligations.StateAfterReset
  exact ⟨inv_reset, rfl, rfl, rfl, rfl, rfl, rfl⟩

end Sys2Proof.Machine

/-! Memory, one bus cycle, and the instructions that move words and stack bytes. -/

namespace Sys2Proof.Machine

open Sys2Proof.Safety

/-! ### Memory in its canonical form -/

/-- A write, read back anywhere. -/
theorem Memory.read_write {m : Memory} (hm : m.wf = true) (a b : Word) (v : Byte) :
    (m.write a.toNat v).read b.toNat = if b = a then v else m.read b.toNat := by
  split
  case isTrue h => rw [h, Memory.read_write_same hm]
  case isFalse h => exact Memory.read_write_other (fun he => h (BitVec.eq_of_toNat_eq he)) v m

/-- The canonical form, cell by cell. -/
theorem Memory.wfFrom_cell {lo b : Nat} {v : Byte} {m : Memory} : Memory.wfFrom lo ((b, v) :: m) = true ↔
    lo ≤ b ∧ b < 2 ^ 16 ∧ v ≠ Config.unlistedByte ∧ Memory.wfFrom (b + 1) m = true := by
  simp [Memory.wfFrom, and_assoc]

/-- A listed address reads as something else than an unlisted one. -/
theorem Memory.read_listed (b : Nat) (v : Byte) (m : Memory) : Memory.read ((b, v) :: m) b = v := by
  simp [Memory.read]

theorem Memory.read_unlisted {a b : Nat} (h : a ≠ b) (v : Byte) (m : Memory) :
    Memory.read ((b, v) :: m) a = Memory.read m a := by
  simp [Memory.read, h]

/-- The lowest listed address of a memory is none below those of a memory that reads alike. -/
theorem Memory.lowest_le {lo b c : Nat} {v w : Byte} {m n : Memory} (hm : Memory.wfFrom lo ((b, v) :: m) = true)
    (hn : Memory.wfFrom lo ((c, w) :: n) = true)
    (h : ∀ a < 2 ^ 16, Memory.read ((b, v) :: m) a = Memory.read ((c, w) :: n) a) : c ≤ b := by
  obtain ⟨-, hb, hv, -⟩ := Memory.wfFrom_cell.mp hm
  obtain ⟨-, hn⟩ := Memory.wfFrom_cell.mp hn
  have hn' : Memory.wfFrom c ((c, w) :: n) = true := Memory.wfFrom_cell.mpr ⟨le_rfl, hn⟩
  by_contra hlt
  have hread := h b hb
  rw [Memory.read_listed, Memory.read_below (by omega) hn'] at hread
  exact hv hread

/-- Two memories in canonical form that read alike are the same list of cells. -/
theorem Memory.wfFrom_ext : ∀ {m n : Memory} {lo : Nat}, Memory.wfFrom lo m = true → Memory.wfFrom lo n = true →
    (∀ a < 2 ^ 16, m.read a = n.read a) → m = n
  | [], [], _, _, _, _ => rfl
  | [], (c, w) :: n, _, _, hn, h => by
    obtain ⟨-, hc, hw, -⟩ := Memory.wfFrom_cell.mp hn
    exact absurd ((Memory.read_listed c w n).symm.trans (h c hc).symm) hw
  | (b, v) :: m, [], _, hm, _, h => by
    obtain ⟨-, hb, hv, -⟩ := Memory.wfFrom_cell.mp hm
    exact absurd ((Memory.read_listed b v m).symm.trans (h b hb)) hv
  | (b, v) :: m, (c, w) :: n, _, hm, hn, h => by
    obtain rfl : b = c := Nat.le_antisymm (Memory.lowest_le hn hm fun a ha => (h a ha).symm) (Memory.lowest_le hm hn h)
    obtain ⟨-, hb, -, hm'⟩ := Memory.wfFrom_cell.mp hm
    obtain ⟨-, -, -, hn'⟩ := Memory.wfFrom_cell.mp hn
    have hvw : v = w := by simpa [Memory.read_listed] using h b hb
    have hrest : m = n := Memory.wfFrom_ext hm' hn' fun a ha => by
      by_cases hab : a = b
      · rw [hab, Memory.read_below (Nat.lt_succ_self b) hm', Memory.read_below (Nat.lt_succ_self b) hn']
      · simpa [Memory.read_unlisted hab] using h a ha
    rw [hvw, hrest]

/-- Memories in canonical form that read alike are equal. -/
theorem Memory.wf_ext {m n : Memory} (hm : m.wf = true) (hn : n.wf = true)
    (h : ∀ a : Word, m.read a.toNat = n.read a.toNat) : m = n :=
  Memory.wfFrom_ext hm hn fun a ha => by
    simpa only [BitVec.toNat_ofNat, Nat.mod_eq_of_lt ha] using h (BitVec.ofNat 16 a)

/-! ### Which region decides -/

theorem regionKindAt_cons_of_mem {r : Config.Region} {a : Word} (h : r.lo.toNat ≤ a.toNat ∧ a.toNat ≤ r.hi.toNat)
    (rs : List Config.Region) : regionKindAt (r :: rs) a = some r.kind := if_pos h

theorem regionKindAt_cons_of_not_mem {r : Config.Region} {a : Word}
    (h : ¬ (r.lo.toNat ≤ a.toNat ∧ a.toNat ≤ r.hi.toNat)) (rs : List Config.Region) :
    regionKindAt (r :: rs) a = regionKindAt rs a := if_neg h

/-- An address in no region is RAM (92 D13). -/
theorem regionKindAt_eq_none (a : Word) : ∀ rs : List Config.Region,
    regionKindAt rs a = none ↔ ∀ r ∈ rs, ¬ (r.lo.toNat ≤ a.toNat ∧ a.toNat ≤ r.hi.toNat)
  | [] => by simp [regionKindAt]
  | r :: rs => by
    by_cases hr : r.lo.toNat ≤ a.toNat ∧ a.toNat ≤ r.hi.toNat
    · simp [regionKindAt_cons_of_mem hr, hr]
    · rw [regionKindAt_cons_of_not_mem hr, regionKindAt_eq_none a rs, List.forall_mem_cons]
      exact (and_iff_right hr).symm

/-- The first region that holds an address decides. -/
theorem regionKindAt_first {a : Word} {r : Config.Region} (hr : r.lo.toNat ≤ a.toNat ∧ a.toNat ≤ r.hi.toNat) :
    ∀ {rs : List Config.Region} {k : Nat}, rs[k]? = some r →
      (∀ j < k, ∀ q, rs[j]? = some q → ¬ (q.lo.toNat ≤ a.toNat ∧ a.toNat ≤ q.hi.toNat)) →
      regionKindAt rs a = some r.kind
  | [], _, hk, _ => nomatch hk
  | q :: rs, 0, hk, _ => by
    obtain rfl : q = r := by simpa using hk
    exact regionKindAt_cons_of_mem hr rs
  | q :: rs, k + 1, hk, hfirst => by
    rw [regionKindAt_cons_of_not_mem (hfirst 0 (Nat.succ_pos k) q rfl)]
    exact regionKindAt_first hr hk fun j hj => hfirst (j + 1) (Nat.succ_lt_succ hj)

/-! ### Reads and stores by region -/

section
variable (s : State) {a : Word}

theorem State.read_device (h : regionKindAt s.params.memMap a = some .device) :
    s.read a = Config.deviceByte a s.io s.cycles := by
  simp [State.read, h]

theorem State.read_nothing (h : regionKindAt s.params.memMap a = some .nothing) :
    s.read a = Config.drawByte (.openBus a) s.cycles := by
  simp [State.read, h]

theorem State.isRam_iff : s.isRam a = true ↔ regionKindAt s.params.memMap a = none := by
  simp [State.isRam]

theorem State.isRam_eq_false (h : regionKindAt s.params.memMap a ≠ none) : s.isRam a = false := by
  rw [Bool.eq_false_iff]
  exact fun hr => h (s.isRam_iff.mp hr)

end

/-- A cycle that stores at RAM is read back (R69). -/
theorem State.access_read_same (s : State) (hm : s.mem.wf = true) {c : BusAccess} (hc : c.stored = some c.data)
    (hr : s.isRam c.addr = true) : (s.access c).read c.addr = c.data := by
  rw [State.read_ram _ (by simpa using hr), State.access_mem_of_store s hc,
    State.write_memRead s hm, if_pos ⟨rfl, hr⟩]

theorem BusAccess.stored_of_stores {c : BusAccess} (h : c.kind = .w ∨ c.kind = .s) : c.stored = some c.data := by
  obtain h | h := h <;> simp [BusAccess.stored, h]

/-- The device at the address of a cycle sees it first of all. -/
theorem State.access_io_device (s : State) {c : BusAccess} (h : regionKindAt s.params.memMap c.addr = some .device) :
    (s.access c).io = ⟨c.addr, c.stored⟩ :: s.io := by
  simp [State.access_io, devicesSeen, h]

/-- Settles O54, clause by clause from the laws of memory, of the regions and of one bus cycle. -/
theorem memoryLaws : Obligations.MemoryLaws := by
  unfold Obligations.MemoryLaws
  refine ⟨fun m a b v hm => ⟨Memory.wf_write hm a.isLt v, Memory.read_write hm a b v⟩,
    fun m n => Memory.wf_ext, fun rs a => ⟨regionKindAt_eq_none a rs, fun k r hk hlo hhi => ?first⟩, ?reads, ?stores,
    ?cycle, fun s m => memoryValue_held m s⟩
  case first => exact regionKindAt_first ⟨hlo, hhi⟩ hk
  case reads =>
    intro s a
    cases hk : regionKindAt s.params.memMap a with
    | none => exact s.read_held (by simp [hk])
    | some k =>
      cases k with
      | rom => exact s.read_held (by simp [hk])
      | device => exact s.read_device hk
      | nothing => exact s.read_nothing hk
      | fault => trivial
  case stores =>
    intro s a v
    refine ⟨fun h => ?ram, fun h => s.write_not_ram (s.isRam_eq_false h) v, fun b hb => s.write_read_other hb v⟩
    have hr : s.isRam a = true := s.isRam_iff.mpr h
    exact ⟨by simp [State.write, hr, State.setMem], fun hm => s.write_read_same hm hr v⟩
  case cycle =>
    intro s c
    refine ⟨s.access_mem c, s.access_io c, s.access_cycles c, s.access_bus c, fun hc => ?sees, fun hc a ha => ?other⟩
    case other => rw [State.read_held _ (by simpa using ha), State.access_mem_of_read s hc]
    have hstored := BusAccess.stored_of_stores hc
    cases hk : regionKindAt s.params.memMap c.addr with
    | none => exact fun hm => s.access_read_same hm hstored (s.isRam_iff.mpr hk)
    | some k =>
      cases k with
      | rom =>
        show (s.access c).read c.addr = s.mem.read c.addr.toNat
        rw [State.read_held _ (by simp [hk]), State.access_memRead_not_ram s c (s.isRam_eq_false (by simp [hk]))]
      | device =>
        show (s.access c).read c.addr = _
        rw [State.read_device _ (by simpa using hk), State.access_io_device s hk, hstored, State.access_cycles]
      | nothing =>
        show (s.access c).read c.addr = _
        rw [State.read_nothing _ (by simpa using hk), State.access_cycles]
      | fault => trivial

end Sys2Proof.Machine

/-! Instructions that push, pull and move words: what each leaves of the state it starts in (R55, R58, R59). -/

namespace Sys2Proof.Machine

open Sys2Proof.Safety

/-! ### Where an instruction goes on, and what it leaves alone -/

/-- The last program fetch of an instruction is that of the next opcode (R30). -/
theorem exec_goesTo {i : Instr} {s t : State} (h : exec i s = .next t) {target : Word} (hpc : t.pc = target) :
    GoesTo s t target := ⟨hpc, (prefetchedOpcode i s t h).1⟩

theorem sameBytes_of_mem {s t : State} (h : t.mem = s.mem) : SameBytes s t := fun b => by rw [h]

/-- A byte stored at `b`, where there is RAM, and no other byte. -/
theorem storedAt_of_memRead {s t : State} {b : Word} {v : Byte}
    (h : ∀ c : Word, t.mem.read c.toNat = if c = b ∧ s.isRam b = true then v else s.mem.read c.toNat) :
    StoredAt s t b v :=
  ⟨fun hr => by rw [h, if_pos ⟨rfl, hr⟩], fun c hc => by rw [h, if_neg fun hcb => hc hcb.1]⟩

/-! ### The stack -/

theorem State.push_storedAt (s : State) (hm : s.mem.wf = true) (v : Byte) : StoredAt s (s.push v) s.sp v :=
  storedAt_of_memRead (s.push_memRead hm v)

theorem State.push_bus (s : State) (v : Byte) : (s.push v).bus = s.bus ++ [⟨.s, s.sp, v⟩] := rfl

theorem State.pull_mem (s : State) : s.pull.2.mem = s.mem := by simp

theorem State.pull_bus (s : State) : s.pull.2.bus = s.bus ++ [⟨.u, s.sp + 1#16, s.pull.1⟩] := rfl

/-- What PSHA, PSHH and PSHX do with their register (R215, R216, R217). -/
theorem exec_push {i : Instr} {s : State} {v : Byte} (hm : s.mem.wf = true)
    (h : exec i s = .next ((s.advance 1).push v)) :
    ∃ t, exec i s = .next t ∧ StoredAt s t s.sp v ∧ Registers t s.a s.x s.h (s.sp - 1#16) ∧ t.ccr = s.ccr ∧
      GoesTo s t (s.pc + 1#16) ∧ SameSurroundings s t := by
  refine ⟨_, h, storedAt_of_memRead fun c => ?stored, by simp [Registers], by simp, exec_goesTo h (by simp),
    (((Continues.refl s).advance 1).push v).2⟩
  case stored => simpa using (s.advance 1).push_memRead (by simpa using hm) v c

/-- Settles O44. -/
theorem pushAndPull : Obligations.PushAndPull := by
  unfold Obligations.PushAndPull
  intro s
  refine ⟨fun hm v => ⟨s.push_storedAt hm v, s.push_sp v, s.push_bus v⟩,
    ⟨s.pull_fst, by simp, sameBytes_of_mem s.pull_mem, s.pull_bus⟩, fun hm i v hi => ?pushes, fun i a x h hi => ?pulls⟩
  case pushes =>
    simp only [List.mem_cons, Prod.mk.injEq, List.not_mem_nil, or_false] at hi
    obtain ⟨rfl, rfl⟩ | ⟨rfl, rfl⟩ | ⟨rfl, rfl⟩ := hi <;> exact exec_push hm rfl
  case pulls =>
    have pulled : Continues s (s.advance 1).pull.2 := ((Continues.refl s).advance 1).pull
    simp only [List.mem_cons, Prod.mk.injEq, List.not_mem_nil, or_false] at hi
    obtain ⟨rfl, rfl, rfl, rfl⟩ | ⟨rfl, rfl, rfl, rfl⟩ | ⟨rfl, rfl, rfl, rfl⟩ := hi
    · exact ⟨_, rfl, by simp [Registers], by simp, exec_goesTo (i := .pula) rfl (by simp),
        sameBytes_of_mem (by simp), (pulled.setA _).2⟩
    · exact ⟨_, rfl, by simp [Registers], by simp, exec_goesTo (i := .pulh) rfl (by simp),
        sameBytes_of_mem (by simp), (pulled.setH _).2⟩
    · exact ⟨_, rfl, by simp [Registers], by simp, exec_goesTo (i := .pulx) rfl (by simp),
        sameBytes_of_mem (by simp), (pulled.setX _).2⟩

/-! ### LDHX, CPHX and STHX -/

/-- The 16-bit operand of LDHX and CPHX as its cycles find it, high byte first (R55, R212, R213). -/
theorem source16_cases {s : State} {dd : Byte} {src : Source16} {m : Word} {len : Nat}
    (h : (src = .imm m ∧ len = 3) ∨
      (src = .dir dd ∧ m = wordOf ((s.fetch 1).read (dd.setWidth 16))
        (((s.fetch 1).load .r (dd.setWidth 16)).read (dd.setWidth 16 + 1#16)) ∧ len = 2)) :
    source16Value src s = m ∧ source16Length src = len := by
  obtain ⟨rfl, rfl⟩ | ⟨rfl, rfl, rfl⟩ := h
  · exact ⟨rfl, rfl⟩
  · exact ⟨rfl, rfl⟩

/-- STHX, in memory: `H` at `$00:dd`, `X` at the next address (R222). -/
theorem execSthx_memRead (s : State) (hm : s.mem.wf = true) (dd : Byte) (c : Word) :
    (((((s.fetch 1).storeWord .w (zext16 dd) s.hx).advance 2).setCcr (logic16 s.hx s.ccr)).mem.read c.toNat) =
      if c = zext16 dd + 1#16 ∧ s.isRam (zext16 dd + 1#16) = true then s.x
      else if c = zext16 dd ∧ s.isRam (zext16 dd) = true then s.h else s.mem.read c.toNat := by
  simp [State.storeWord_memRead (s.fetch 1) (by simpa using hm), State.hx]

/-- Settles O42. -/
theorem indexRegisterMemory : Obligations.IndexRegisterMemory := by
  unfold Obligations.IndexRegisterMemory
  intro s dd lo valued
  refine ⟨fun src m len hsrc => ?reads, fun hm hhi hlo => ?sthx⟩
  case reads =>
    obtain ⟨rfl, rfl⟩ := source16_cases hsrc
    have read : Continues s (readOperand16 src s) := (Continues.refl s).readOperand16 src
    constructor
    · exact ⟨_, rfl, by simp, by simp [State.hx], by simp, by simp [valued, logic16, nz16],
        exec_goesTo (i := .ldhx src) rfl (by simp), sameBytes_of_mem (by simp), ((read.setHx _).setCcr _).2⟩
    · refine ⟨_, rfl, by simp [Registers], ?_, exec_goesTo (i := .cphx src) rfl (by simp),
        sameBytes_of_mem (by simp), (read.setCcr _).2⟩
      simpa [sub16, nz16, Bool.and_comm] using sub_eq_zero (a := s.hx)
  case sthx =>
    have hne : (dd.setWidth 16 : Word) ≠ lo := by simp only [lo]; bv_omega
    have hmem := execSthx_memRead s hm dd
    refine ⟨_, rfl, by simp [Registers], by simp [valued, logic16, nz16], ?_, ?_, fun c hc hc' => ?_,
      exec_goesTo (i := .sthx dd) rfl (by simp),
      (((((Continues.refl s).fetch 1).writeWord _ _).advance 2).setCcr _).2⟩
    · exact (hmem _).trans (by simp [zext16, hhi])
    · exact (hmem _).trans (if_pos ⟨rfl, hlo⟩)
    · exact (hmem c).trans (by rw [if_neg fun h => hc' h.1, if_neg fun h => hc h.1])

end Sys2Proof.Machine

/-! What the bus cycles of every instruction move, said once for all instructions (`exec_exchange`): the program bytes,
the reads, the stores, the stack cycles in the order in which they are made, and where the `d` cycles read (R60 to
R68). The kinds of the cycles and the registers are those of `exec_does`. -/

namespace Sys2Proof.Machine

open Sys2Proof.Safety

/-! ### The cycles of one kind -/

/-- The addresses and bytes of the cycles of one kind, in order. -/
def moved (k : BusCycle) (bus : List BusAccess) : List (Word × Byte) :=
  (bus.filter fun c => c.kind == k).map fun c => (c.addr, c.data)

/-- The addresses of the cycles of one kind, in order. -/
def addresses (k : BusCycle) (bus : List BusAccess) : List Word := (bus.filter fun c => c.kind == k).map BusAccess.addr

theorem addresses_eq (k : BusCycle) (bus : List BusAccess) : addresses k bus = (moved k bus).map Prod.fst := by
  simp [addresses, moved, Function.comp_def]

theorem moved_concat (k : BusCycle) (bus : List BusAccess) (c : BusAccess) :
    moved k (bus ++ [c]) = moved k bus ++ if c.kind = k then [(c.addr, c.data)] else [] := by
  by_cases h : c.kind = k <;> simp [moved, h]

theorem length_moved (k : BusCycle) (bus : List BusAccess) :
    (moved k bus).length = (bus.map BusAccess.kind).count k := by
  rw [moved, List.length_map, List.count, List.countP_map, List.countP_eq_length_filter]
  rfl

/-- Where a `d` cycle right after this one reads: the same address, or after a push the decremented `SP` (R67). -/
def BusAccess.dummyAddr (c : BusAccess) : Word := if c.kind = .s then c.addr - 1#16 else c.addr

/-- Every `d` cycle reads where the cycle before it has it read. -/
def DummiesFollow (bus : List BusAccess) : Prop :=
  ∀ (k : Nat) (c : BusAccess), bus[k + 1]? = some c → c.kind = .d → ∃ b, bus[k]? = some b ∧ c.addr = b.dummyAddr

theorem DummiesFollow.concat {bus : List BusAccess} (h : DummiesFollow bus) {c : BusAccess}
    (hc : c.kind = .d → ∀ b, bus.getLast? = some b → c.addr = b.dummyAddr) : DummiesFollow (bus ++ [c]) := by
  intro k e hk hd
  rcases Nat.lt_trichotomy (k + 1) bus.length with hlt | heq | hgt
  · rw [List.getElem?_append_left hlt] at hk
    rw [List.getElem?_append_left (by omega)]
    exact h k e hk hd
  · obtain rfl : c = e := by simpa [heq] using hk
    have hlast : bus[k]? = bus.getLast? := by rw [List.getLast?_eq_getElem?, ← heq, Nat.add_sub_cancel]
    rw [List.getElem?_append_left (by omega), hlast]
    cases hb : bus.getLast? with
    | none => simp [List.getLast?_eq_none_iff.mp hb] at heq
    | some b => exact ⟨b, rfl, hc hd b hb⟩
  · rw [List.getElem?_append_right (by omega), List.getElem?_singleton, if_neg (by omega)] at hk
    exact nomatch hk

/-! ### What cycles have moved so far -/

/-- The bytes that cycles exchange with memory, devices and the stack, in order: addresses and bytes of the `r`, the
`w` and the `s` cycles, addresses of the `u` cycles. -/
structure Exchange where
  reads : List (Word × Byte) := []
  writes : List (Word × Byte) := []
  pushed : List (Word × Byte) := []
  pulled : List Word := []

/-- What cycles have done since an instruction started, and the two registers their addresses depend on. -/
structure Trail extends Exchange where
  pc : Word
  sp : Word
  /-- The addresses and bytes of the program fetches. -/
  program : List (Word × Byte) := []
  /-- Where a `d` cycle would read now. -/
  last : Word

/-- The trail after one more cycle. -/
def Trail.after (w : Trail) (c : BusAccess) : Trail :=
  match c.kind with
  | .p => { w with program := w.program ++ [(c.addr, c.data)], last := c.addr }
  | .r => { w with reads := w.reads ++ [(c.addr, c.data)], last := c.addr }
  | .w => { w with writes := w.writes ++ [(c.addr, c.data)], last := c.addr }
  | .s => { w with pushed := w.pushed ++ [(c.addr, c.data)], last := c.addr - 1#16 }
  | .u => { w with pulled := w.pulled ++ [c.addr], last := c.addr }
  | .v => { w with last := c.addr }
  | .d => { w with last := c.addr }

/-- The trail is that of these cycles. -/
structure Trail.Tells (w : Trail) (bus : List BusAccess) : Prop where
  program : moved .p bus = w.program
  reads : moved .r bus = w.reads
  writes : moved .w bus = w.writes
  pushed : moved .s bus = w.pushed
  pulled : addresses .u bus = w.pulled
  last : ∀ b, bus.getLast? = some b → b.dummyAddr = w.last
  dummies : DummiesFollow bus

theorem Trail.Tells.concat {w : Trail} {bus : List BusAccess} (h : w.Tells bus) {c : BusAccess}
    (hc : c.kind = .d → c.addr = w.last) : (w.after c).Tells (bus ++ [c]) := by
  obtain ⟨hp, hr, hw, hs, hu, hlast, hd⟩ := h
  have hd' : DummiesFollow (bus ++ [c]) := hd.concat fun hk b hb => (hc hk).trans (hlast b hb).symm
  rw [addresses_eq] at hu
  obtain ⟨k, a, d⟩ := c
  constructor
  case dummies => exact hd'
  case last => cases k <;> simp [Trail.after, BusAccess.dummyAddr]
  all_goals cases k <;> simp [Trail.after, addresses_eq, moved_concat, hp, hr, hw, hs, hu]

/-- From `s` to `t` cycles with this trail are made, and writes of registers. -/
structure Moves (w : Trail) (s t : State) : Prop where
  cycles : ∃ bus, Ran s t bus ∧ w.Tells bus
  pc : t.pc = w.pc
  sp : t.sp = w.sp

@[simp] theorem Trail.after_pc (w : Trail) (c : BusAccess) : (w.after c).pc = w.pc := by
  unfold Trail.after; split <;> rfl
@[simp] theorem Trail.after_sp (w : Trail) (c : BusAccess) : (w.after c).sp = w.sp := by
  unfold Trail.after; split <;> rfl

/-- The first `n` program bytes after the opcode, as `p` cycles in a row find them (R61; 92 D14). -/
def fetched (s : State) : Nat → List (Word × Byte)
  | 0 => []
  | n + 1 => fetched s n ++ [(s.pc + BitVec.ofNat 16 (n + 1), (s.fetch n).read (s.pc + BitVec.ofNat 16 (n + 1)))]

/-- The trail of an instruction that has fetched `n` program bytes in a row. -/
def Trail.start (s : State) (n : Nat) : Trail where
  pc := s.pc
  sp := s.sp
  program := fetched s n
  last := s.pc + BitVec.ofNat 16 n

namespace Moves

theorem refl (s : State) : Moves (Trail.start s 0) s s := ⟨⟨[], .refl s, rfl, rfl, rfl, rfl, rfl, nofun, nofun⟩, rfl, rfl⟩

section
variable {w : Trail} {s t : State} (h : Moves w s t)
include h

/-! Writes of registers. -/

theorem regs {u : State} (hu : SameBus u t) (hpc : u.pc = t.pc) (hsp : u.sp = t.sp) : Moves w s u := by
  obtain ⟨⟨bus, hran, htells⟩, hp, hs⟩ := h
  exact ⟨⟨bus, hran.regs hu, htells⟩, hpc.trans hp, hsp.trans hs⟩

theorem setSp (v : Word) : Moves { w with sp := v } s (t.setSp v) := by
  obtain ⟨⟨bus, hran, htells⟩, hp, -⟩ := h
  exact ⟨⟨bus, hran.setSp v, { htells with }⟩, hp, rfl⟩

theorem setA (v : Byte) : Moves w s (t.setA v) := h.regs ⟨rfl, rfl, rfl, rfl, rfl⟩ rfl rfl
theorem setX (v : Byte) : Moves w s (t.setX v) := h.regs ⟨rfl, rfl, rfl, rfl, rfl⟩ rfl rfl
theorem setH (v : Byte) : Moves w s (t.setH v) := h.regs ⟨rfl, rfl, rfl, rfl, rfl⟩ rfl rfl
theorem setCcr (f : Ccr) : Moves w s (t.setCcr f) := h.regs ⟨rfl, rfl, rfl, rfl, rfl⟩ rfl rfl
theorem setHx (v : Word) : Moves w s (t.setHx v) := (h.setH _).setX _
theorem noteMask (before : Bool) : Moves w s (t.noteMask before) := h.regs ⟨rfl, rfl, rfl, rfl, rfl⟩ rfl rfl
theorem halt (r : RunState) : Moves w s (t.halt r) := h.regs ⟨rfl, rfl, rfl, rfl, rfl⟩ rfl rfl

/-! Bus cycles. -/

theorem access (c : BusAccess) (hc : c.stored = none → c.data = t.read c.addr) (hd : c.kind = .d → c.addr = w.last) :
    Moves (w.after c) s (t.access c) := by
  obtain ⟨⟨bus, hran, htells⟩, hp, hs⟩ := h
  exact ⟨⟨_, hran.access hc, htells.concat hd⟩, by simpa using hp, by simpa using hs⟩

theorem read (a : Word) : Moves (w.after ⟨.r, a, t.read a⟩) s (t.load .r a) := h.access _ (fun _ => rfl) nofun
theorem vector (a : Word) : Moves (w.after ⟨.v, a, t.read a⟩) s (t.load .v a) := h.access _ (fun _ => rfl) nofun
theorem write (a : Word) (v : Byte) : Moves (w.after ⟨.w, a, v⟩) s (t.store .w a v) := h.access _ nofun nofun

theorem dummy {a : Word} (ha : a = w.last) : Moves (w.after ⟨.d, a, t.read a⟩) s (t.dummy a) :=
  h.access _ (fun _ => rfl) fun _ => ha

theorem push (v : Byte) : Moves { w.after ⟨.s, w.sp, v⟩ with sp := w.sp - 1#16 } s (t.push v) := by
  rw [State.push, h.sp]
  exact (h.access ⟨.s, w.sp, v⟩ nofun nofun).setSp _

theorem pull : Moves { w.after ⟨.u, w.sp + 1#16, t.pull.1⟩ with sp := w.sp + 1#16 } s t.pull.2 := by
  rw [State.pull_snd, State.pull_fst, h.sp]
  exact (h.setSp (w.sp + 1#16)).access ⟨.u, w.sp + 1#16, t.read (w.sp + 1#16)⟩ (fun _ => rfl) nofun

theorem pushWord (v : Word) : Moves { (w.after ⟨.s, w.sp, loByte v⟩).after ⟨.s, w.sp - 1#16, hiByte v⟩ with
    sp := w.sp - 1#16 - 1#16 } s (t.pushWord v) := (h.push _).push _

/-- A program byte that is not the next opcode. -/
theorem fetchByte (n : Nat) : Moves (w.after ⟨.p, w.pc + BitVec.ofNat 16 n, t.read (w.pc + BitVec.ofNat 16 n)⟩) s
    (t.fetchByte n) := by
  rw [State.fetchByte, h.pc]
  exact h.access _ (fun _ => rfl) nofun

/-- The fetch of the next opcode. -/
theorem goto (a : Word) : Moves { w.after ⟨.p, a, t.read a⟩ with pc := a } s (t.goto a) := by
  obtain ⟨⟨bus, hran, htells⟩, -, hs⟩ := h.access ⟨.p, a, t.read a⟩ (fun _ => rfl) nofun
  exact ⟨⟨bus, hran.regs ⟨rfl, rfl, rfl, rfl, rfl⟩, { htells with }⟩, rfl, hs⟩

theorem advance (n : Nat) : Moves { w.after ⟨.p, w.pc + BitVec.ofNat 16 n, t.read (w.pc + BitVec.ofNat 16 n)⟩ with
    pc := w.pc + BitVec.ofNat 16 n } s (t.advance n) := by
  rw [State.advance, h.pc]
  exact h.goto _

theorem dummies {a : Word} (ha : a = w.last) : ∀ n : Nat, Moves { w with last := a } s (t.dummies a n)
  | 0 => by rwa [ha]
  | n + 1 => (dummies ha n).dummy rfl

theorem advanceThenDummies (n : Nat) :
    Moves { w.after ⟨.p, w.pc + 1#16, t.read (w.pc + 1#16)⟩ with pc := w.pc + 1#16 } s (t.advanceThenDummies n) := by
  rw [State.advanceThenDummies, h.pc]
  exact (h.advance 1).dummies rfl n

end

/-- The program bytes that an instruction starts with. -/
theorem fetch (s : State) : ∀ n : Nat, Moves (Trail.start s n) s (s.fetch n)
  | 0 => refl s
  | n + 1 => (fetch s n).fetchByte (n + 1)

theorem fetchThenDummy (s : State) (n : Nat) : Moves (Trail.start s n) s (s.fetchThenDummy n) := (fetch s n).dummy rfl

end Moves

/-! ### What an instruction moves -/

/-- From `s` to `t` the cycles fetch `program` and then the next opcode, and move the bytes of `e`. -/
def Completed (program : List (Word × Byte)) (e : Exchange) (s t : State) : Prop :=
  ∃ (pc sp last : Word) (d : Byte),
    Moves { e with pc := pc, sp := sp, last := last, program := program ++ [(pc, d)] } s t

/-- The direct address that is read between the first and the second program byte: BRSET and BRCLR (`prpdp`) and MOV
direct to direct (`prpwp`) (R161, R162, R214). -/
def addressBetweenFetches : Instr → Option Byte
  | .brset _ dd _ | .brclr _ dd _ => some dd
  | .mov (.dirDir src _) => some src
  | _ => none

/-- The program bytes that an instruction fetches before the next opcode; `n` of them in a row, unless it reads in
between. -/
def programBytes (i : Instr) (n : Nat) (s : State) : List (Word × Byte) :=
  match addressBetweenFetches i with
  | none => fetched s n
  | some dd => fetched s 1 ++ [(s.pc + 2#16, ((s.fetch 1).load .r (zext16 dd)).read (s.pc + 2#16))]

/-- The byte that a reader reads from memory, if it does (R120). -/
def sourceReads (src : Source) (s : State) : List (Word × Byte) :=
  match src with
  | .imm _ => []
  | .mem m => [(effectiveAddress m s, memoryValue m s)]

/-- The two bytes that LDHX and CPHX read from memory, if they do (R212, R213). -/
def source16Reads (src : Source16) (s : State) : List (Word × Byte) :=
  match src with
  | .imm _ => []
  | .dir dd => [(zext16 dd, (s.fetch 1).read (zext16 dd)),
      (zext16 dd + 1#16, ((s.fetch 1).load .r (zext16 dd)).read (zext16 dd + 1#16))]

/-- The byte that MOV reads, unless it is immediate (R214). -/
def moveReads (f : MoveForm) (s : State) : List (Word × Byte) :=
  match f with
  | .dirDir src _ | .dirIxPlus src => [(zext16 src, (s.fetch 1).read (zext16 src))]
  | .immDir _ _ => []
  | .ixPlusDir _ => [(s.hx, (s.fetch 1).read s.hx)]

/-- The byte that MOV writes (R214). -/
def moveWrites (f : MoveForm) (s : State) : List (Word × Byte) :=
  match f with
  | .dirDir src dst => [(zext16 dst, (s.fetch 1).read (zext16 src))]
  | .dirIxPlus src => [(s.hx, (s.fetch 1).read (zext16 src))]
  | .immDir ii dst => [(zext16 dst, ii)]
  | .ixPlusDir dst => [(zext16 dst, (s.fetch 1).read s.hx)]

/-- A read-modify-write of a memory byte (R140). -/
def modifyExchange (m : MemMode) (op : Byte → Ccr → Byte × Ccr) (s : State) : Exchange where
  reads := [(effectiveAddress m s, memoryValue m s)]
  writes := [(effectiveAddress m s, (op (memoryValue m s) s.ccr).1)]

/-- A read-modify-write of a byte of the direct page (R160, R163). -/
def directExchange (dd : Byte) (change : Byte → Byte) (s : State) : Exchange where
  reads := [(zext16 dd, directValue dd s)]
  writes := [(zext16 dd, change (directValue dd s))]

/-- A return address on the stack, low byte first (R200, R202). -/
def pushedWord (sp v : Word) : List (Word × Byte) := [(sp, loByte v), (sp - 1#16, hiByte v)]

/-- The addresses of `n` pushes in a row (R64). -/
def stackDown (sp : Word) : Nat → List Word
  | 0 => []
  | n + 1 => sp :: stackDown (sp - 1#16) n

/-- The addresses of `n` pulls in a row (R65). -/
def stackUp (sp : Word) : Nat → List Word
  | 0 => []
  | n + 1 => (sp + 1#16) :: stackUp (sp + 1#16) n

/-- What every instruction reads, writes, pushes and pulls (R62 to R65). -/
def exchange (i : Instr) (s : State) : Exchange :=
  match i with
  | .sub src | .cmp src | .sbc src | .cpx src | .and src | .bit src | .lda src | .eor src | .adc src | .ora src
  | .add src | .ldx src => { reads := sourceReads src s }
  | .tst m => { reads := [(effectiveAddress m s, memoryValue m s)] }
  | .sta m => { writes := [(effectiveAddress m s, s.a)] }
  | .stx m => { writes := [(effectiveAddress m s, s.x)] }
  | .clr m => { writes := [(effectiveAddress m s, 0#8)] }
  | .neg m => modifyExchange m neg8 s
  | .com m => modifyExchange m com8 s
  | .lsr m => modifyExchange m lsr8 s
  | .ror m => modifyExchange m ror8 s
  | .asr m => modifyExchange m asr8 s
  | .lsl m => modifyExchange m lsl8 s
  | .rol m => modifyExchange m rol8 s
  | .dec m => modifyExchange m dec8 s
  | .inc m => modifyExchange m inc8 s
  | .dbnz m _ =>
    { reads := [(effectiveAddress m s, dbnzValue m s)], writes := [(effectiveAddress m s, dbnzValue m s - 1#8)] }
  | .bset n dd => directExchange dd (fun v => v ||| bitMask n) s
  | .bclr n dd => directExchange dd (fun v => v &&& ~~~bitMask n) s
  | .brset _ dd _ | .brclr _ dd _ => { reads := [(zext16 dd, directValue dd s)] }
  | .cbeq m _ => { reads := [(cbeqAddress m s, cbeqValue m s)] }
  | .ldhx src | .cphx src => { reads := source16Reads src s }
  | .sthx dd => { writes := [(zext16 dd, hiByte s.hx), (zext16 dd + 1#16, loByte s.hx)] }
  | .mov f => { reads := moveReads f s, writes := moveWrites f s }
  | .psha => { pushed := [(s.sp, s.a)] }
  | .pshh => { pushed := [(s.sp, s.h)] }
  | .pshx => { pushed := [(s.sp, s.x)] }
  | .pula | .pulh | .pulx => { pulled := stackUp s.sp 1 }
  | .rts => { pulled := stackUp s.sp 2 }
  | .rti => { pulled := stackUp s.sp 5 }
  | .bsr _ => { pushed := pushedWord s.sp (s.pc + 2#16) }
  | .jsr m => { pushed := pushedWord s.sp (s.pc + BitVec.ofNat 16 (modeLength m)) }
  | .swi => { pushed := pushedWord s.sp (s.pc + 1#16) ++ [(s.sp - 1#16 - 1#16, s.x),
      (s.sp - 1#16 - 1#16 - 1#16, s.a), (s.sp - 1#16 - 1#16 - 1#16 - 1#16, s.ccr.toByte)] }
  | _ => {}

namespace Completed

theorem of_moves {program : List (Word × Byte)} {e : Exchange} {s t : State} {pc sp last : Word} {d : Byte}
    (h : Moves { e with pc := pc, sp := sp, last := last, program := program ++ [(pc, d)] } s t) :
    Completed program e s t := ⟨_, _, _, _, h⟩

section
variable {program : List (Word × Byte)} {e : Exchange} {s t : State} (h : Completed program e s t)
include h

theorem regs {u : State} (hu : SameBus u t) (hpc : u.pc = t.pc) (hsp : u.sp = t.sp) : Completed program e s u := by
  obtain ⟨pc, sp, last, d, hm⟩ := h
  exact of_moves (hm.regs hu hpc hsp)

theorem setCcr (f : Ccr) : Completed program e s (t.setCcr f) := h.regs ⟨rfl, rfl, rfl, rfl, rfl⟩ rfl rfl
theorem setHx (v : Word) : Completed program e s (t.setHx v) := h.regs ⟨rfl, rfl, rfl, rfl, rfl⟩ rfl rfl
theorem putA (p : Byte × Ccr) : Completed program e s (t.putA p) := h.regs ⟨rfl, rfl, rfl, rfl, rfl⟩ rfl rfl
theorem putX (p : Byte × Ccr) : Completed program e s (t.putX p) := h.regs ⟨rfl, rfl, rfl, rfl, rfl⟩ rfl rfl

end

/-! The operand in memory, on either side of the fetch of the next opcode (R72). -/

section
variable (s : State) (m : MemMode)

theorem readMemory :
    Completed (fetched s (modeLength m - 1)) { reads := [(effectiveAddress m s, memoryValue m s)] } s
      (readOperand (.mem m) s) := by
  show Completed _ _ s (afterOperand m ((beforeOperand m s).load .r (effectiveAddress m s)))
  unfold memoryValue beforeOperand afterOperand
  cases operandBeforeFetch m
  · exact of_moves (((Moves.fetch s _).advance _).read _)
  · exact of_moves (((Moves.fetch s _).read _).advance _)

theorem writeOperand (v : Byte) :
    Completed (fetched s (modeLength m - 1)) { writes := [(effectiveAddress m s, v)] } s (writeOperand m v s) := by
  unfold Machine.writeOperand beforeOperand afterOperand
  cases operandBeforeFetch m
  · exact of_moves (((Moves.fetch s _).advance _).write _ v)
  · exact of_moves (((Moves.fetch s _).write _ v).advance _)

theorem modifyMemory (op : Byte → Ccr → Byte × Ccr) :
    Completed (fetched s (modeLength m - 1)) (modifyExchange m op s) s (modifyMemory m op s) := by
  refine Completed.setCcr ?_ _
  unfold rewriteOperand modifyExchange memoryValue beforeOperand afterOperand
  cases operandBeforeFetch m
  · exact of_moves ((((Moves.fetch s _).advance _).read _).write _ _)
  · exact of_moves ((((Moves.fetch s _).read _).write _ _).advance _)

end

/-! The other shapes of instructions. -/

section
variable (s : State)

theorem readOperand (src : Source) :
    Completed (fetched s (sourceLength src - 1)) { reads := sourceReads src s } s (readOperand src s) := by
  cases src with
  | imm ii => exact of_moves ((Moves.fetch s 1).advance 2)
  | mem m => exact readMemory s m

theorem readOperand16 (src : Source16) :
    Completed (fetched s (source16Length src - 1)) { reads := source16Reads src s } s (readOperand16 src s) := by
  cases src with
  | imm w => exact of_moves ((Moves.fetch s 2).advance 3)
  | dir dd => exact of_moves ((((Moves.fetch s 1).read _).read _).advance 2)

theorem rewriteDirect (dd : Byte) (change : Byte → Byte) :
    Completed (fetched s 1) (directExchange dd change s) s (rewriteDirect dd change s) :=
  of_moves ((((Moves.fetch s 1).read _).write _ _).advance 2)

end

end Completed

/-! ### Every instruction -/

/-- The instruction's cycles move the bytes of `exchange`, and its program bytes before the next opcode. -/
def Exchanges (i : Instr) (s t : State) : Prop := ∃ n, Completed (programBytes i n s) (exchange i s) s t

/-- An instruction that ends in `u`. -/
theorem Exchanges.next {i : Instr} {s t u : State} {n : Nat} (h : (.next u : Host.Outcome State Fault Refusal) = .next t)
    (hu : Completed (programBytes i n s) (exchange i s) s u) : Exchanges i s t := by
  cases h
  exact ⟨n, hu⟩

theorem Exchanges.of_moves {i : Instr} {s t u : State} {n : Nat} {pc sp last : Word} {d : Byte}
    (h : (.next u : Host.Outcome State Fault Refusal) = .next t)
    (hu : Moves { exchange i s with pc := pc, sp := sp, last := last, program := programBytes i n s ++ [(pc, d)] } s u) :
    Exchanges i s t := .next h (.of_moves hu)

theorem execMov_exchanges {f : MoveForm} {s t : State} (h : execMov f s = .next t) : Exchanges (.mov f) s t := by
  cases f with
  | dirDir src dst =>
    exact .of_moves (n := 1) h ((((((Moves.fetch s 1).read _).fetchByte 2).write _ _).advance 3).setCcr _)
  | dirIxPlus src => exact .of_moves h ((((((Moves.fetch s 1).read _).write _ _).advance 2).setHx _).setCcr _)
  | immDir ii dst => exact .of_moves h ((((Moves.fetch s 2).write _ _).advance 3).setCcr _)
  | ixPlusDir dst => exact .of_moves h ((((((Moves.fetch s 1).read _).write _ _).advance 2).setHx _).setCcr _)

theorem execCbeq_exchanges {m : CbeqMode} {rr : Byte} {s t : State} (h : execCbeq m rr s = .next t) :
    Exchanges (.cbeq m rr) s t := by
  have hu := ((Moves.fetch s (cbeqLength m - 1)).read (cbeqAddress m s)).dummy rfl
  cases m with
  | dir _ | sp1 _ => exact .of_moves h (hu.goto _)
  | ix1Plus _ | ixPlus => exact .of_moves h ((hu.setHx _).goto _)

theorem execDaa_exchanges {s t : State} (h : execDaa s = .next t) : Exchanges .daa s t := by
  have hu := (Moves.fetch s 1).advance 1
  unfold execDaa at h
  split at h
  · exact .of_moves h ((hu.setA _).setCcr _)
  · exact .of_moves h ((hu.setA _).setCcr _)

theorem execDiv_exchanges {s t : State} (h : execDiv s = .next t) : Exchanges .div s t := by
  have hu := (Moves.fetchThenDummy s 1).advanceThenDummies 4
  simp only [execDiv] at h
  split at h
  · exact .of_moves h (((hu.setA _).setH _).setCcr _)
  · exact .of_moves h (((hu.setA _).setH _).setCcr _)

theorem execJmp_exchanges {m : MemMode} {s t : State} (h : execJmp m s = .next t) : Exchanges (.jmp m) s t := by
  cases m with
  | dir _ | ext _ | ix => exact .of_moves h ((Moves.fetch s _).goto _)
  | ix2 _ | ix1 _ | sp2 _ | sp1 _ => exact .of_moves h ((Moves.fetchThenDummy s _).goto _)

theorem execJsr_exchanges {m : MemMode} {s t : State} (h : execJsr m s = .next t) : Exchanges (.jsr m) s t := by
  have hu := (Moves.fetch s (jumpFetches m)).pushWord (s.pc + BitVec.ofNat 16 (modeLength m))
  cases m with
  | dir _ | ext _ | ix => exact .of_moves h (hu.goto _)
  | ix2 _ | ix1 _ | sp2 _ | sp1 _ => exact .of_moves h ((hu.dummy hu.sp).goto _)

theorem execStop_exchanges {s t : State} (h : execStop s = .next t) : Exchanges .stop s t := by
  unfold execStop at h
  split at h
  · exact .of_moves h (((Moves.refl s).advance 1).halt _)
  · exact nomatch h

theorem execSwi_exchanges {s t : State} (h : execSwi s = .next t) : Exchanges .swi s t := by
  have pushed := (((((Moves.fetch s 1).pushWord (s.pc + 1#16)).push s.x).push s.a).push s.ccr.toByte).setCcr
    (s.ccr.withI true)
  exact .of_moves h (((pushed.vector _).vector _).goto _)

theorem execRti_exchanges {s t : State} (h : execRti s = .next t) : Exchanges .rti s t := by
  have pulled := (Moves.fetch s 1).pull.pull.pull.pull.pull
  exact .of_moves h (((((pulled.setCcr _).setA _).setX _).noteMask _).goto _)

/-- Every instruction that answers a next state moves the bytes of `exchange`. -/
theorem exec_exchanges {i : Instr} {s t : State} (h : exec i s = .next t) : Exchanges i s t := by
  have start : Moves (Trail.start s 0) s s := .refl s
  have bytes (n : Nat) : Moves (Trail.start s n) s (s.fetch n) := .fetch s n
  cases i with
  | brset n dd rr | brclr n dd rr =>
    exact .of_moves (n := 1) h ((((((bytes 1).read _).fetchByte 2).dummy rfl).setCcr _).goto _)
  | bset n dd => exact .next (n := 1) h (.rewriteDirect s dd fun v => v ||| bitMask n)
  | bclr n dd => exact .next (n := 1) h (.rewriteDirect s dd fun v => v &&& ~~~bitMask n)
  | bra rr | brn rr | bhi rr | bls rr | bcc rr | bcs rr | bne rr | beq rr | bhcc rr | bhcs rr | bpl rr | bmi rr
  | bmc rr | bms rr | bil rr | bih rr | bge rr | blt rr | bgt rr | ble rr =>
    exact .of_moves h ((Moves.fetchThenDummy s 1).goto _)
  | neg m | com m | lsr m | ror m | asr m | lsl m | rol m | dec m | inc m => exact .next h (.modifyMemory s m _)
  | nega | coma | lsra | rora | asra | lsla | rola | deca | inca => exact .of_moves h (((start.advance 1).setA _).setCcr _)
  | negx | comx | lsrx | rorx | asrx | lslx | rolx | decx | incx => exact .of_moves h (((start.advance 1).setX _).setCcr _)
  | tst m => exact .next h ((Completed.readMemory s m).setCcr _)
  | clr m => exact .next h ((Completed.writeOperand s m _).setCcr _)
  | tsta | tstx => exact .of_moves h ((start.setCcr _).advance 1)
  | clra => exact .of_moves h (((start.setA _).setCcr _).advance 1)
  | clrx => exact .of_moves h (((start.setX _).setCcr _).advance 1)
  | clrh => exact .of_moves h (((start.setH _).setCcr _).advance 1)
  | sub src | sbc src | and src | lda src | eor src | adc src | ora src | add src =>
    exact .next h ((Completed.readOperand s src).putA _)
  | cmp src | cpx src | bit src => exact .next h ((Completed.readOperand s src).setCcr _)
  | ldx src => exact .next h ((Completed.readOperand s src).putX _)
  | sta m | stx m => exact .next h ((Completed.writeOperand s m _).setCcr _)
  | cbeq m rr => exact execCbeq_exchanges h
  | cbeqa ii rr | cbeqx ii rr => exact .of_moves h ((Moves.fetchThenDummy s 2).goto _)
  | dbnz m rr => exact .of_moves h ((((bytes (modeLength m)).read _).write _ _).goto _)
  | dbnza rr => exact .of_moves h (((Moves.fetchThenDummy s 1).setA _).goto _)
  | dbnzx rr => exact .of_moves h (((Moves.fetchThenDummy s 1).setX _).goto _)
  | sthx dd => exact .of_moves h (((((bytes 1).write _ _).write _ _).advance 2).setCcr _)
  | ldhx src => exact .next h (((Completed.readOperand16 s src).setHx _).setCcr _)
  | cphx src => exact .next h ((Completed.readOperand16 s src).setCcr _)
  | mov f => exact execMov_exchanges h
  | ais ii => exact .of_moves h (((bytes 1).advance 2).setSp _)
  | aix ii => exact .of_moves h (((bytes 1).advance 2).setHx _)
  | txs => exact .of_moves h (((bytes 1).advance 1).setSp _)
  | tsx => exact .of_moves h (((bytes 1).advance 1).setHx _)
  | rsp => exact .of_moves h ((start.advance 1).setSp _)
  | psha | pshx | pshh => exact .of_moves h ((start.advance 1).push _)
  | pula => exact .of_moves h ((start.advance 1).pull.setA _)
  | pulx => exact .of_moves h ((start.advance 1).pull.setX _)
  | pulh => exact .of_moves h ((start.advance 1).pull.setH _)
  | mul => exact .of_moves h (((((bytes 1).advanceThenDummies 3).setX _).setA _).setCcr _)
  | div => exact execDiv_exchanges h
  | nsa => exact .of_moves h (((bytes 1).advanceThenDummies 1).setA _)
  | daa => exact execDaa_exchanges h
  | tax => exact .of_moves h ((start.advance 1).setX _)
  | txa | tpa => exact .of_moves h ((start.advance 1).setA _)
  | clc | sec => exact .of_moves h ((start.advance 1).setCcr _)
  | sei => exact .of_moves h ((start.advanceThenDummies 1).setCcr _)
  | nop => exact .of_moves h (start.advance 1)
  | cli | tap => exact .of_moves h (((start.advanceThenDummies 1).setCcr _).noteMask _)
  | bsr rr => exact .of_moves h (((bytes 1).pushWord _).goto _)
  | jmp m => exact execJmp_exchanges h
  | jsr m => exact execJsr_exchanges h
  | rts => exact .of_moves h ((bytes 1).pull.pull.goto _)
  | swi => exact execSwi_exchanges h
  | rti => exact execRti_exchanges h
  | wait => exact .of_moves h ((start.advance 1).halt _)
  | stop => exact execStop_exchanges h

/-! ### The cycles of an instruction, kind by kind -/

/-- The cycles of an instruction: their kinds, and what they move. -/
structure Cycles (i : Instr) (n : Nat) (s t : State) (bus : List BusAccess) : Prop where
  ran : Ran s t bus
  kinds : bus.map BusAccess.kind = cycleCode i
  program : moved .p bus = programBytes i n s ++ [(t.pc, t.ibuf)]
  reads : moved .r bus = (exchange i s).reads
  writes : moved .w bus = (exchange i s).writes
  pushed : moved .s bus = (exchange i s).pushed
  pulled : addresses .u bus = (exchange i s).pulled
  dummies : DummiesFollow bus

/-- The last program fetch is the last cycle of its kind. -/
theorem LastFetch.getLast? {bus : List BusAccess} {a : Word} {d : Byte} (h : LastFetch bus a d) :
    (moved .p bus).getLast? = some (a, d) := by
  obtain ⟨before, after, rfl, hafter⟩ := h
  have hnone : after.filter (fun c => c.kind == .p) = [] := by simpa using hafter
  simp [moved, hnone]

theorem exec_cycles {i : Instr} {s t : State} (h : exec i s = .next t) : ∃ n, Cycles i n s t (cyclesOf s t) := by
  obtain ⟨bus, hran, hkinds, hlast⟩ := (exec_does h).cycles
  obtain ⟨n, pc, sp, last, d, ⟨bus', hran', hp, hr, hw, hs, hu, -, hd⟩, -, -⟩ := exec_exchanges h
  obtain rfl : cyclesOf s t = bus := hran.spec.2.1
  obtain rfl : cyclesOf s t = bus' := hran'.spec.2.1
  refine ⟨n, hran, hkinds, ?_, hr, hw, hs, hu, hd⟩
  have hend := (hlast rfl).getLast?
  rw [hp] at hend ⊢
  simpa using hend

/-! Where the cycles of each kind stand. -/

theorem length_fetched (s : State) : ∀ n : Nat, (fetched s n).length = n
  | 0 => rfl
  | n + 1 => by simp [fetched, length_fetched s n]

theorem fetched_addr (s : State) {k : Nat} : ∀ {n : Nat}, k < n →
    ((fetched s n).map Prod.fst)[k]? = some (s.pc + BitVec.ofNat 16 (k + 1))
  | n + 1, hk => by
    rw [fetched, List.map_append]
    obtain hlt | rfl := Nat.lt_succ_iff_lt_or_eq.mp hk
    · rw [List.getElem?_append_left (by simpa [length_fetched] using hlt)]
      exact fetched_addr s hlt
    · rw [List.getElem?_append_right (by simp [length_fetched])]
      simp [length_fetched]

/-- The program fetches before the last are of the bytes after the opcode, in order (R61; 92 D14). -/
theorem programBytes_addr (i : Instr) (n : Nat) (s : State) {k : Nat} (hk : k < (programBytes i n s).length) :
    ((programBytes i n s).map Prod.fst)[k]? = some (s.pc + BitVec.ofNat 16 (k + 1)) := by
  unfold programBytes at hk ⊢
  split at hk
  next => exact fetched_addr s (by simpa [length_fetched] using hk)
  next dd _ =>
    have htwo : (fetched s 1 ++ [(s.pc + 2#16, ((s.fetch 1).load .r (zext16 dd)).read (s.pc + 2#16))]).map Prod.fst =
        (fetched s 2).map Prod.fst := by simp [fetched]
    rw [htwo]
    exact fetched_addr s (by simpa [length_fetched] using hk)

theorem length_stackDown (sp : Word) (n : Nat) : (stackDown sp n).length = n := by
  induction n generalizing sp with
  | zero => rfl
  | succ n ih => simp [stackDown, ih]

theorem length_stackUp (sp : Word) (n : Nat) : (stackUp sp n).length = n := by
  induction n generalizing sp with
  | zero => rfl
  | succ n ih => simp [stackUp, ih]

theorem stackDown_getElem? {n k : Nat} (sp : Word) (hk : k < n) :
    (stackDown sp n)[k]? = some (sp - BitVec.ofNat 16 k) := by
  induction n generalizing sp k with
  | zero => exact absurd hk (Nat.not_lt_zero k)
  | succ n ih =>
    cases k with
    | zero => simp [stackDown]
    | succ k => simp [stackDown, ih (sp - 1#16) (Nat.lt_of_succ_lt_succ hk), BitVec.ofNat_add, sub_sub, add_comm]

theorem stackUp_getElem? {n k : Nat} (sp : Word) (hk : k < n) :
    (stackUp sp n)[k]? = some (sp + BitVec.ofNat 16 (k + 1)) := by
  induction n generalizing sp k with
  | zero => exact absurd hk (Nat.not_lt_zero k)
  | succ n ih =>
    cases k with
    | zero => simp [stackUp]
    | succ k => simp [stackUp, ih (sp + 1#16) (Nat.lt_of_succ_lt_succ hk), BitVec.ofNat_add, add_assoc, add_comm]

/-- The pushes of an instruction walk down from `SP` (R64). -/
theorem exchange_pushed (i : Instr) (s : State) : ∃ n, (exchange i s).pushed.map Prod.fst = stackDown s.sp n := by
  cases i with
  | psha | pshh | pshx => exact ⟨1, rfl⟩
  | bsr | jsr => exact ⟨2, rfl⟩
  | swi => exact ⟨5, rfl⟩
  | _ => exact ⟨0, rfl⟩

/-- The pulls of an instruction walk up from `SP + 1` (R65). -/
theorem exchange_pulled (i : Instr) (s : State) : ∃ n, (exchange i s).pulled = stackUp s.sp n := by
  cases i with
  | pula | pulh | pulx => exact ⟨1, rfl⟩
  | rts => exact ⟨2, rfl⟩
  | rti => exact ⟨5, rfl⟩
  | _ => exact ⟨0, rfl⟩

end Sys2Proof.Machine

/-! The bus cycles of every instruction against the spec's table of cycle codes (R60 to R69): `exec_cycles`, read off
group by group. -/

namespace Sys2Proof.Machine

open Sys2Proof.Safety

/-! ### Lengths -/

/-- The facts about the object code of each instruction, for all of them. -/
theorem objectCode (i : Instr) : Laws.ObjectCode.Statement i := by
  cases i with
  | neg m | com m | lsr m | ror m | asr m | lsl m | rol m | dec m | inc m | tst m | clr m | sta m | stx m | jmp m
  | jsr m => exact Laws.ObjectCode.of_holds (by cases m <;> rfl)
  | cbeq m rr | dbnz m rr => exact Laws.ObjectCode.of_holds (by cases m <;> rfl)
  | sub src | cmp src | sbc src | cpx src | and src | bit src | lda src | eor src | adc src | ora src | add src
  | ldx src =>
    refine Laws.ObjectCode.of_holds ?_
    cases src with
    | imm ii => rfl
    | mem m => cases m <;> rfl
  | ldhx src | cphx src => exact Laws.ObjectCode.of_holds (by cases src <;> rfl)
  | mov f => exact Laws.ObjectCode.of_holds (by cases f <;> rfl)
  | _ => exact Laws.ObjectCode.of_holds rfl

/-! ### What the groups of instructions move -/

section
variable {i : Instr} {s : State}

/-- The readers and TST (R62, R120). -/
theorem exchange_reader {m : MemMode} (hi : i ∈ [Instr.lda (.mem m), .ldx (.mem m), .adc (.mem m), .add (.mem m),
    .and (.mem m), .bit (.mem m), .cmp (.mem m), .cpx (.mem m), .eor (.mem m), .ora (.mem m), .sbc (.mem m),
    .sub (.mem m), .tst m]) : (exchange i s).reads = [(effectiveAddress m s, memoryValue m s)] := by
  simp only [List.mem_cons, List.not_mem_nil, or_false] at hi
  obtain rfl | rfl | rfl | rfl | rfl | rfl | rfl | rfl | rfl | rfl | rfl | rfl | rfl := hi <;> rfl

/-- STA, STX and CLR (R63). -/
theorem exchange_writer {m : MemMode} {v : Byte} (hi : (i, v) ∈ [(Instr.sta m, s.a), (.stx m, s.x), (.clr m, 0#8)]) :
    (exchange i s).writes = [(effectiveAddress m s, v)] := by
  simp only [List.mem_cons, Prod.mk.injEq, List.not_mem_nil, or_false] at hi
  obtain ⟨rfl, rfl⟩ | ⟨rfl, rfl⟩ | ⟨rfl, rfl⟩ := hi <;> rfl

/-- The nine read-modify-write operations (R140). -/
theorem exchange_modify {m : MemMode} {row : (MemMode → Instr) × Instr × Instr × (Byte → Ccr → Byte × Ccr)}
    (hrow : row ∈ modifyTable) : exchange (row.1 m) s = modifyExchange m row.2.2.2 s := by
  simp only [modifyTable, List.mem_cons, List.not_mem_nil, or_false] at hrow
  obtain rfl | rfl | rfl | rfl | rfl | rfl | rfl | rfl | rfl := hrow <;> rfl

theorem bitMask_getLsbD (n : Fin 8) {k : Nat} (hk : k < 8) : (bitMask n).getLsbD k = decide (k = n.val) := by
  obtain ⟨n, hn⟩ := n
  simp only [bitMask, BitVec.getLsbD_shiftLeft, BitVec.getLsbD_one]
  grind

/-- BSET and BCLR store the byte they read, with one bit of it as they say (R160, R163). -/
theorem exchange_oneBit {n : Fin 8} {dd : Byte} {on : Bool}
    (hi : (i = .bset n dd ∧ on = true) ∨ (i = .bclr n dd ∧ on = false)) :
    (exchange i s).reads = [(zext16 dd, directValue dd s)] ∧
      ∃ v : Byte, (exchange i s).writes = [(zext16 dd, v)] ∧
        ∀ k, k < 8 → v.getLsbD k = if k = n.val then on else (directValue dd s).getLsbD k := by
  obtain ⟨rfl, rfl⟩ | ⟨rfl, rfl⟩ := hi
  · refine ⟨rfl, _, rfl, fun k hk => ?_⟩
    rw [BitVec.getLsbD_or, bitMask_getLsbD n hk]
    split <;> simp [*]
  · refine ⟨rfl, _, rfl, fun k hk => ?_⟩
    rw [BitVec.getLsbD_and, BitVec.getLsbD_not, bitMask_getLsbD n hk]
    split <;> simp [*]

/-- LDHX and CPHX from memory, high byte first (R55, R212, R213). -/
theorem exchange_readWord {dd : Byte} (hi : i ∈ [Instr.ldhx (.dir dd), .cphx (.dir dd)]) :
    (exchange i s).reads = [(zext16 dd, hiByte (source16Value (.dir dd) s)),
      (zext16 dd + 1#16, loByte (source16Value (.dir dd) s))] := by
  have hread : source16Reads (.dir dd) s = [(zext16 dd, hiByte (source16Value (.dir dd) s)),
      (zext16 dd + 1#16, loByte (source16Value (.dir dd) s))] := by simp [source16Reads, source16Value]
  obtain rfl | rfl := List.mem_pair.mp hi <;> exact hread

theorem exchange_sthx (dd : Byte) :
    (exchange (.sthx dd) s).writes = [(zext16 dd, s.h), (zext16 dd + 1#16, s.x)] := by
  have hwrite : [(zext16 dd, hiByte s.hx), (zext16 dd + 1#16, loByte s.hx)] =
      [(zext16 dd, s.h), (zext16 dd + 1#16, s.x)] := by simp [State.hx]
  exact hwrite

/-- The pushes of one register (R215, R216, R217). -/
theorem exchange_push {v : Byte} (hi : (i, v) ∈ [(Instr.psha, s.a), (.pshh, s.h), (.pshx, s.x)]) :
    (exchange i s).pushed = [(s.sp, v)] := by
  simp only [List.mem_cons, Prod.mk.injEq, List.not_mem_nil, or_false] at hi
  obtain ⟨rfl, rfl⟩ | ⟨rfl, rfl⟩ | ⟨rfl, rfl⟩ := hi <;> rfl

/-- The return addresses of JSR and BSR (R200, R202). -/
theorem exchange_call {ret : Word} (hi : (∃ m, i = .jsr m ∧ ret = s.pc + BitVec.ofNat 16 (modeLength m)) ∨
    (∃ rr, i = .bsr rr ∧ ret = s.pc + 2#16)) : (exchange i s).pushed = pushedWord s.sp ret := by
  obtain ⟨m, rfl, rfl⟩ | ⟨rr, rfl, rfl⟩ := hi <;> rfl

end

/-! ### Where the cycles stand -/

namespace Cycles

section
variable {i : Instr} {n : Nat} {s t : State} {bus : List BusAccess} (h : Cycles i n s t bus)
include h

theorem length_program : (addresses .p bus).length = (cycleCode i).count .p := by
  rw [addresses_eq, List.length_map, length_moved, h.kinds]

/-- Every program fetch but the last is of the next byte after the opcode. -/
theorem program_addr {k : Nat} (hk : k + 1 < (addresses .p bus).length) :
    (addresses .p bus)[k]? = some (s.pc + BitVec.ofNat 16 (k + 1)) := by
  rw [addresses_eq, h.program, List.map_append] at hk ⊢
  have hlt : k < (programBytes i n s).length := by simpa using hk
  rw [List.getElem?_append_left (by simpa using hlt), programBytes_addr i n s hlt]

theorem pushed_addr {k : Nat} (hk : k < (addresses .s bus).length) :
    (addresses .s bus)[k]? = some (s.sp - BitVec.ofNat 16 k) := by
  obtain ⟨n, hn⟩ := exchange_pushed i s
  rw [addresses_eq, h.pushed, hn] at hk ⊢
  exact stackDown_getElem? s.sp (by simpa [length_stackDown] using hk)

theorem pulled_addr {k : Nat} (hk : k < (addresses .u bus).length) :
    (addresses .u bus)[k]? = some (s.sp + BitVec.ofNat 16 (k + 1)) := by
  obtain ⟨n, hn⟩ := exchange_pulled i s
  rw [h.pulled, hn] at hk ⊢
  exact stackUp_getElem? s.sp (by simpa [length_stackUp] using hk)

end

end Cycles

/-- The cycles of SWI are the entry sequence (R252, R264). -/
theorem execSwi_entry {s t : State} (h : execSwi s = .next t) :
    EntrySequence s t (s.pc + 1#16) s.params.vecSwi (cyclesOf s t) := by
  obtain rfl : s.takeException (s.pc + 1#16) s.params.vecSwi = t := Host.Outcome.next.inj h
  obtain ⟨bus, hran, hentry⟩ := State.takeException_entry s (s.pc + 1#16) s.params.vecSwi
  obtain rfl : cyclesOf s _ = bus := hran.spec.2.1
  exact hentry

/-- Settles O10: the cycles of `exec_cycles`, kind by kind, then group by group. -/
theorem busCyclesMakeTheInstruction : Obligations.BusCyclesMakeTheInstruction := by
  unfold Obligations.BusCyclesMakeTheInstruction
  intro i s t hexec bus at_ moved
  obtain ⟨n, h⟩ := exec_cycles hexec
  obtain ⟨hbus, -, hcycles, hio, hmem, -, hcoherent⟩ := h.ran.spec
  refine ⟨hbus, h.kinds, ?count, hio, hcoherent, hmem, ?opcode, fun k => h.program_addr, fun hw => ?length,
    fun k => h.pushed_addr, fun k => h.pulled_addr, h.dummies, fun m hi => h.reads.trans (exchange_reader hi),
    fun m v hi => h.writes.trans (exchange_writer hi), fun m row hrow hi => ?modify, fun m rr hi => ?dbnz,
    fun n dd on hi => ?oneBit, fun n dd rr hi => ?branch, fun m rr hi => ?cbeq,
    fun dd hi => h.reads.trans (exchange_readWord hi), fun dd hi => ?sthx, fun f hi => ?mov,
    fun v hi => h.pushed.trans (exchange_push hi), fun ret hi => h.pushed.trans (exchange_call hi), fun hi => ?swi⟩
  case count => rw [hcycles, cycleCount, ← h.kinds, List.length_map]
  case opcode => exact (congrArg List.getLast? h.program).trans (by simp)
  case length =>
    obtain ⟨-, -, -, hlength⟩ := objectCode i hw
    exact h.length_program ▸ hlength
  case modify =>
    subst hi
    have hex : exchange (row.1 m) s = modifyExchange m row.2.2.2 s := exchange_modify hrow
    exact ⟨h.reads.trans (by rw [hex]; rfl), h.writes.trans (by rw [hex]; rfl)⟩
  case dbnz => subst hi; exact ⟨h.reads, h.writes⟩
  case oneBit =>
    obtain ⟨hreads, v, hwrites, hbits⟩ := exchange_oneBit (s := s) hi
    exact ⟨h.reads.trans hreads, v, h.writes.trans hwrites, hbits⟩
  case branch => obtain rfl | rfl := List.mem_pair.mp hi <;> exact h.reads
  case cbeq => subst hi; cases m <;> exact h.reads
  case sthx => subst hi; exact h.writes.trans (exchange_sthx dd)
  case mov =>
    subst hi
    cases f with
    | dirDir _ _ | dirIxPlus _ | immDir _ _ | ixPlusDir _ => exact ⟨h.reads, h.writes⟩
  case swi => subst hi; exact execSwi_entry hexec

end Sys2Proof.Machine

/-! What decodes is the object code of a well-formed instruction (R97 to R100): row by row of the opcode map. -/

namespace Sys2Proof

/-! ### Decoders of operand bytes -/

/-- `decoder`, of the bytes after `opcode`, gives well-formed instructions only, each from its object code. -/
def Spells (opcode : List Byte) (decoder : List Byte → Decoded) : Prop :=
  ∀ (bs : List Byte) (i : Instr) (rest : List Byte), decoder bs = .ok (i, rest) →
    WellFormed i ∧ opcode ++ bs = encode i ++ rest

namespace Spells

theorem error (opcode : List Byte) (e : DecodeError) : Spells opcode fun _ => .error e := nofun

theorem take0 {opcode : List Byte} {i : Instr} (hw : WellFormed i) (he : encode i = opcode) :
    Spells opcode (Sys2Proof.take0 i) := by
  intro bs j rest h
  cases h
  exact ⟨hw, by rw [he]⟩

theorem take1 {opcode : List Byte} {k : Byte → Instr} (hw : ∀ b, WellFormed (k b))
    (he : ∀ b, encode (k b) = opcode ++ [b]) : Spells opcode (Sys2Proof.take1 k)
  | b :: bs, j, rest, h => by cases h; exact ⟨hw b, by simp [he]⟩
  | [], _, _, h => nomatch h

theorem take2 {opcode : List Byte} {k : Byte → Byte → Instr} (hw : ∀ b c, WellFormed (k b c))
    (he : ∀ b c, encode (k b c) = opcode ++ [b, c]) : Spells opcode (Sys2Proof.take2 k)
  | b :: c :: bs, j, rest, h => by cases h; exact ⟨hw b c, by simp [he]⟩
  | [_], _, _, h => nomatch h
  | [], _, _, h => nomatch h

theorem takeWord {opcode : List Byte} {k : Word → Instr} (hw : ∀ v, WellFormed (k v))
    (he : ∀ v, encode (k v) = opcode ++ [hiByte v, loByte v]) : Spells opcode (Sys2Proof.takeWord k) :=
  take2 (fun _ _ => hw _) fun b c => by simp [he]

end Spells

/-! ### Columns of the opcode map -/

/-- The opcode with these two nibbles. -/
def opcodeAt (hi lo : Nat) : Byte := BitVec.ofNat 8 (16 * hi) ||| BitVec.ofNat 8 lo

theorem opcodeAt_nibbles : ∀ b : Byte, opcodeAt (b.toNat / 16) (b.toNat % 16) = b := by decide

section
variable {lo : Nat}

theorem rmwColumn_some {k : MemMode → Instr} (h : rmwColumn lo = some k) :
    (∀ m, (k m).isWellFormed = m.isRmw) ∧ ∀ m, encode (k m) = encodeRmw (BitVec.ofNat 8 lo) m := by
  unfold rmwColumn at h
  split at h
  all_goals cases h <;> exact ⟨fun _ => rfl, fun _ => rfl⟩

theorem readColumn_some {k : Source → Instr} (h : readColumn lo = some k) :
    (∀ src, WellFormed (k src)) ∧ ∀ src, encode (k src) = encodeSource (BitVec.ofNat 8 lo) src := by
  unfold readColumn at h
  split at h
  all_goals cases h <;> exact ⟨fun _ => rfl, fun _ => rfl⟩

theorem memColumn_some {k : MemMode → Instr} (h : memColumn lo = some k) :
    (∀ m, WellFormed (k m)) ∧ ∀ m, encode (k m) = encodeMem (BitVec.ofNat 8 lo) m := by
  unfold memColumn at h
  split at h
  · cases h; exact ⟨fun _ => rfl, fun _ => rfl⟩
  · cases h; exact ⟨fun _ => rfl, fun _ => rfl⟩
  · obtain ⟨k', hk', rfl⟩ := Option.map_eq_some_iff.mp h
    obtain ⟨hw, he⟩ := readColumn_some hk'
    exact ⟨fun m => hw (.mem m), fun m => he (.mem m)⟩

theorem memOrJumpColumn_some {k : MemMode → Instr} (h : memOrJumpColumn lo = some k) :
    (∀ m, m.isJump = true → WellFormed (k m)) ∧ ∀ m, encode (k m) = encodeMem (BitVec.ofNat 8 lo) m := by
  unfold memOrJumpColumn at h
  split at h
  · cases h; exact ⟨fun _ hm => hm, fun _ => rfl⟩
  · cases h; exact ⟨fun _ hm => hm, fun _ => rfl⟩
  · obtain ⟨hw, he⟩ := memColumn_some h
    exact ⟨fun m _ => hw m, he⟩

end

/-! ### Rows of the opcode map -/

theorem decodeMemRow_spells {opcode : List Byte} {bad : DecodeError} {column : Option (MemMode → Instr)}
    {take : (MemMode → Instr) → List Byte → Decoded} (h : ∀ k, column = some k → Spells opcode (take k)) :
    Spells opcode (decodeMemRow bad column take) := by
  cases column with
  | some k => exact h k rfl
  | none => exact .error opcode bad

section
variable (bad : DecodeError) {lo : Nat}

/-- The bit number and the sense of rows `0` and `1` (R96). -/
theorem bitOpcode_eq : ∀ lo : Fin 16,
    (lo.val % 2 = 0 → bitOpcode 0x00#8 (Fin.ofNat 8 (lo.val / 2)) = opcodeAt 0 lo ∧
      bitOpcode 0x10#8 (Fin.ofNat 8 (lo.val / 2)) = opcodeAt 1 lo) ∧
    (lo.val % 2 ≠ 0 → bitOpcode 0x01#8 (Fin.ofNat 8 (lo.val / 2)) = opcodeAt 0 lo ∧
      bitOpcode 0x11#8 (Fin.ofNat 8 (lo.val / 2)) = opcodeAt 1 lo) := by
  decide

theorem decodeRow0_spells (hlo : lo < 16) : Spells [opcodeAt 0 lo] (take2 fun dd rr =>
    if lo % 2 = 0 then .brset (Fin.ofNat 8 (lo / 2)) dd rr else .brclr (Fin.ofNat 8 (lo / 2)) dd rr) := by
  obtain ⟨heven, hodd⟩ := bitOpcode_eq ⟨lo, hlo⟩
  by_cases h : lo % 2 = 0
  · simp only [if_pos h]
    exact .take2 (fun _ _ => rfl) fun dd rr => by rw [encode, (heven h).1]; rfl
  · simp only [if_neg h]
    exact .take2 (fun _ _ => rfl) fun dd rr => by rw [encode, (hodd h).1]; rfl

theorem decodeRow1_spells (hlo : lo < 16) : Spells [opcodeAt 1 lo] (take1 fun dd =>
    if lo % 2 = 0 then .bset (Fin.ofNat 8 (lo / 2)) dd else .bclr (Fin.ofNat 8 (lo / 2)) dd) := by
  obtain ⟨heven, hodd⟩ := bitOpcode_eq ⟨lo, hlo⟩
  by_cases h : lo % 2 = 0
  · simp only [if_pos h]
    exact .take1 (fun _ => rfl) fun dd => by rw [encode, (heven h).2]; rfl
  · simp only [if_neg h]
    exact .take1 (fun _ => rfl) fun dd => by rw [encode, (hodd h).2]; rfl

theorem decodeRow2_spells (hlo : lo < 16) : Spells [opcodeAt 2 lo] (take1 (branchColumn lo)) := by
  unfold branchColumn
  split
  case h_16 =>
    simp only [imp_false] at *
    obtain rfl : lo = 15 := by omega
    exact .take1 (fun _ => rfl) fun _ => rfl
  all_goals exact .take1 (fun _ => rfl) fun _ => rfl

theorem decodeRow3_spells : Spells [opcodeAt 3 lo] (decodeRow3 bad lo) := by
  unfold decodeRow3
  split
  · exact .take2 (fun _ _ => rfl) fun _ _ => rfl
  · exact .take1 (fun _ => rfl) fun _ => rfl
  · exact .take2 (fun _ _ => rfl) fun _ _ => rfl
  · cases hk : rmwColumn lo with
    | none => exact .error _ _
    | some k =>
      obtain ⟨hw, he⟩ := rmwColumn_some hk
      exact .take1 (fun dd => hw (.dir dd)) fun dd => he (.dir dd)

theorem decodeRow4_spells (hlo : lo < 16) : Spells [opcodeAt 4 lo] (decodeRow4 lo) := by
  unfold decodeRow4
  split
  case h_2 | h_15 => exact .take2 (fun _ _ => rfl) fun _ _ => rfl
  case h_6 => exact .takeWord (fun _ => rfl) fun _ => rfl
  case h_12 => exact .take1 (fun _ => rfl) fun _ => rfl
  case h_16 =>
    simp only [imp_false] at *
    obtain rfl : lo = 15 := by omega
    exact .take0 rfl rfl
  all_goals exact .take0 rfl rfl

theorem decodeRow5_spells (hlo : lo < 16) : Spells [opcodeAt 5 lo] (decodeRow5 lo) := by
  unfold decodeRow5
  split
  case h_2 => exact .take2 (fun _ _ => rfl) fun _ _ => rfl
  case h_6 | h_12 | h_15 => exact .take1 (fun _ => rfl) fun _ => rfl
  case h_16 =>
    simp only [imp_false] at *
    obtain rfl : lo = 15 := by omega
    exact .take0 rfl rfl
  all_goals exact .take0 rfl rfl

theorem decodeRow6_spells : Spells [opcodeAt 6 lo] (decodeRow6 bad lo) := by
  unfold decodeRow6
  split
  case h_1 | h_4 | h_5 => exact .take2 (fun _ _ => rfl) fun _ _ => rfl
  case h_2 => exact .take0 rfl rfl
  case h_3 => exact .takeWord (fun _ => rfl) fun _ => rfl
  case h_6 =>
    cases hk : rmwColumn lo with
    | none => exact .error _ _
    | some k =>
      obtain ⟨hw, he⟩ := rmwColumn_some hk
      exact .take1 (fun ff => hw (.ix1 ff)) fun ff => he (.ix1 ff)

theorem decodeRow7_spells : Spells [opcodeAt 7 lo] (decodeRow7 bad lo) := by
  unfold decodeRow7
  split
  case h_2 => exact .take0 rfl rfl
  case h_6 =>
    cases hk : rmwColumn lo with
    | none => exact .error _ _
    | some k =>
      obtain ⟨hw, he⟩ := rmwColumn_some hk
      exact .take0 (hw .ix) (he .ix)
  all_goals exact .take1 (fun _ => rfl) fun _ => rfl

theorem decodeRow8_spells : Spells [opcodeAt 8 lo] (decodeRow8 bad lo) := by
  unfold decodeRow8
  split
  case h_15 => exact .error _ _
  all_goals exact .take0 rfl rfl

theorem decodeRow9_spells : Spells [opcodeAt 9 lo] (decodeRow9 bad lo) := by
  unfold decodeRow9
  split
  case h_1 | h_2 | h_3 | h_4 => exact .take1 (fun _ => rfl) fun _ => rfl
  case h_15 => exact .error _ _
  all_goals exact .take0 rfl rfl

theorem decodeRowA_spells : Spells [opcodeAt 0xA lo] (decodeRowA bad lo) := by
  unfold decodeRowA
  split
  case h_4 =>
    cases hk : readColumn lo with
    | none => exact .error _ _
    | some k =>
      obtain ⟨hw, he⟩ := readColumn_some hk
      exact .take1 (fun ii => hw (.imm ii)) fun ii => he (.imm ii)
  all_goals exact .take1 (fun _ => rfl) fun _ => rfl

end

/-! ### The two pages -/

theorem decodePage1_spells (b : Byte) {hi lo : Nat} (hhi : hi < 16) (hlo : lo < 16) :
    Spells [opcodeAt hi lo] (decodePage1 b hi lo) := by
  unfold decodePage1
  split
  case h_1 => exact decodeRow0_spells hlo
  case h_2 => exact decodeRow1_spells hlo
  case h_3 => exact decodeRow2_spells hlo
  case h_4 => exact decodeRow3_spells _
  case h_5 => exact decodeRow4_spells hlo
  case h_6 => exact decodeRow5_spells hlo
  case h_7 => exact decodeRow6_spells _
  case h_8 => exact decodeRow7_spells _
  case h_9 => exact decodeRow8_spells _
  case h_10 => exact decodeRow9_spells _
  case h_11 => exact decodeRowA_spells _
  all_goals
    refine decodeMemRow_spells fun k hk => ?_
    obtain ⟨hw, he⟩ := memOrJumpColumn_some hk
  case h_12 => exact .take1 (fun dd => hw (.dir dd) rfl) fun dd => he (.dir dd)
  case h_13 => exact .takeWord (fun a => hw (.ext a) rfl) fun a => he (.ext a)
  case h_14 => exact .takeWord (fun o => hw (.ix2 o) rfl) fun o => he (.ix2 o)
  case h_15 => exact .take1 (fun ff => hw (.ix1 ff) rfl) fun ff => he (.ix1 ff)
  case h_16 =>
    simp only [imp_false] at *
    obtain rfl : hi = 15 := by omega
    exact .take0 (hw .ix rfl) (he .ix)

theorem decodePage2_spells (b : Byte) (hi lo : Nat) : Spells [0x9E#8, opcodeAt hi lo] (decodePage2 b hi lo) := by
  unfold decodePage2
  split
  case h_1 =>
    split
    · exact .take2 (fun _ _ => rfl) fun _ _ => rfl
    · exact .take2 (fun _ _ => rfl) fun _ _ => rfl
    · refine decodeMemRow_spells fun k hk => ?_
      obtain ⟨hw, he⟩ := rmwColumn_some hk
      exact .take1 (fun ff => hw (.sp1 ff)) fun ff => he (.sp1 ff)
  case h_2 =>
    refine decodeMemRow_spells fun k hk => ?_
    obtain ⟨hw, he⟩ := memColumn_some hk
    exact .takeWord (fun o => hw (.sp2 o)) fun o => he (.sp2 o)
  case h_3 =>
    refine decodeMemRow_spells fun k hk => ?_
    obtain ⟨hw, he⟩ := memColumn_some hk
    exact .take1 (fun ff => hw (.sp1 ff)) fun ff => he (.sp1 ff)
  case h_4 => exact .error _ _

/-- What decodes is the object code of a well-formed instruction, before the bytes that are left (R99, R103, R104). -/
theorem decode_eq_ok {bs rest : List Byte} {i : Instr} (h : decode bs = .ok (i, rest)) :
    WellFormed i ∧ bs = encode i ++ rest := by
  cases bs with
  | nil => exact nomatch h
  | cons b bs =>
    by_cases hb : b = 0x9E#8
    · subst hb
      cases bs with
      | nil => exact nomatch h
      | cons c cs => simpa [opcodeAt_nibbles] using decodePage2_spells c _ _ cs i rest h
    · simp only [decode, if_neg hb] at h
      have hlo : b.toNat % 16 < 16 := Nat.mod_lt _ (by decide)
      simpa [opcodeAt_nibbles] using decodePage1_spells b (by omega) hlo bs i rest h

end Sys2Proof

/-! The step at a boundary is `exec` of the instruction that the fetched bytes decode to: the bytes that the step looks
at are those that the program fetches of `exec` move (R61, R100). -/

namespace Sys2Proof.Machine

open Sys2Proof.Safety

/-! ### The fetched bytes -/

section
variable (s : State)

/-- The first program fetches do not depend on how many follow. -/
theorem fetched_take {k n : Nat} (h : k ≤ n) : (fetched s n).take k = fetched s k := by
  induction h with
  | refl => exact List.take_of_length_le (length_fetched s k).le
  | step h ih => rw [fetched, List.take_append_of_le_length (by simpa [length_fetched] using h), ih]

theorem fetchBytes_inARow (h : readsBetweenFetches s.ibuf = false) :
    s.fetchBytes = s.ibuf :: (fetched s 3).map Prod.snd := by
  simp only [State.fetchBytes, h]
  rfl

theorem fetchBytes_between {b dd c : Byte} {bs : List Byte} (h : readsBetweenFetches s.ibuf = true)
    (hbytes : s.fetchBytes = b :: dd :: c :: bs) :
    s.read (s.pc + 1#16) = dd ∧ ((s.fetch 1).load .r (zext16 dd)).read (s.pc + 2#16) = c := by
  simp only [State.fetchBytes, h, if_true, List.cons.injEq] at hbytes
  obtain ⟨-, rfl, hc, -⟩ := hbytes
  exact ⟨rfl, hc⟩

end

/-! ### The object code of the instructions that read in between -/

/-- Rows `1` of the opcode map and above do not read between their fetches. -/
theorem readsBetweenFetches_bitOpcode : ∀ n : Fin 8,
    readsBetweenFetches (bitOpcode 0x00#8 n) = true ∧ readsBetweenFetches (bitOpcode 0x01#8 n) = true ∧
      readsBetweenFetches (bitOpcode 0x10#8 n) = false ∧ readsBetweenFetches (bitOpcode 0x11#8 n) = false := by
  decide

theorem encode_of_between {i : Instr} {dd : Byte} (h : addressBetweenFetches i = some dd) :
    ∃ b c, encode i = [b, dd, c] ∧ readsBetweenFetches b = true := by
  unfold addressBetweenFetches at h
  split at h
  next n dd rr => cases h; exact ⟨_, _, rfl, (readsBetweenFetches_bitOpcode n).1⟩
  next n dd rr => cases h; exact ⟨_, _, rfl, (readsBetweenFetches_bitOpcode n).2.1⟩
  next => cases h; exact ⟨_, _, rfl, rfl⟩
  next => cases h

theorem readsBetweenFetches_encode {i : Instr} (hw : WellFormed i) (h : addressBetweenFetches i = none) {b : Byte}
    {bs : List Byte} (hi : encode i = b :: bs) : readsBetweenFetches b = false := by
  have hhead : readsBetweenFetches ((encode i).headD 0xFF#8) = false := by
    cases i with
    | brset n _ _ | brclr n _ _ => cases h
    | bset n _ => exact (readsBetweenFetches_bitOpcode n).2.2.1
    | bclr n _ => exact (readsBetweenFetches_bitOpcode n).2.2.2
    | mov f =>
      cases f with
      | dirDir _ _ => cases h
      | _ => rfl
    | neg m | com m | lsr m | ror m | asr m | lsl m | rol m | dec m | inc m | tst m | clr m | sta m | stx m | jmp m
    | jsr m => cases m <;> rfl
    | cbeq m _ => cases m <;> rfl
    | dbnz m _ =>
      cases m with
      | dir _ | ix1 _ | ix | sp1 _ => rfl
      | ext _ | ix2 _ | sp2 _ => cases hw
    | sub src | cmp src | sbc src | cpx src | and src | bit src | lda src | eor src | adc src | ora src | add src
    | ldx src =>
      cases src with
      | imm ii => rfl
      | mem m => cases m <;> rfl
    | ldhx src | cphx src => cases src <;> rfl
    | _ => rfl
  rwa [hi] at hhead

/-- The program fetches of an instruction move the bytes that it is decoded from (R61, R80, R100). -/
theorem programBytes_data {i : Instr} {n : Nat} {s : State} {rest : List Byte} (hw : WellFormed i)
    (hbytes : s.fetchBytes = encode i ++ rest) (hlength : (encode i).length ≤ (programBytes i n s).length + 1)
    (hpos : 1 ≤ (encode i).length) :
    ((programBytes i n s).map Prod.snd).take ((encode i).length - 1) = (encode i).tail := by
  cases hdd : addressBetweenFetches i with
  | some dd =>
    obtain ⟨b, c, hi, hb⟩ := encode_of_between hdd
    rw [hi] at hbytes ⊢
    obtain rfl : s.ibuf = b := (List.cons.inj hbytes).1
    obtain ⟨hfirst, hsecond⟩ := fetchBytes_between s hb hbytes
    simpa [programBytes, hdd, fetched, State.fetch, hfirst] using hsecond
  | none =>
    obtain ⟨b, bs, hi⟩ := List.exists_cons_of_length_pos hpos
    have hn : bs.length ≤ n := by simpa [hi, programBytes, hdd, length_fetched] using hlength
    have hb := readsBetweenFetches_encode hw hdd hi
    rw [hi] at hbytes ⊢
    obtain rfl : s.ibuf = b := (List.cons.inj hbytes).1
    have hdata : (fetched s 3).map Prod.snd = bs ++ rest := by
      rw [fetchBytes_inARow s hb] at hbytes
      exact (List.cons.inj hbytes).2
    have hthree : bs.length ≤ 3 := by
      rw [← length_fetched s 3, ← List.length_map Prod.snd, hdata, List.length_append]
      exact Nat.le_add_right _ _
    calc ((programBytes i n s).map Prod.snd).take bs.length
        = (fetched s bs.length).map Prod.snd := by rw [programBytes, hdd, ← List.map_take, fetched_take s hn]
      _ = ((fetched s 3).map Prod.snd).take bs.length := by rw [← List.map_take, fetched_take s hthree]
      _ = bs := by rw [hdata, List.take_left]

/-! ### The step -/

theorem State.fetchBytes_setInhibit (s : State) (b : Bool) : (s.setInhibit b).fetchBytes = s.fetchBytes := by
  cases h : readsBetweenFetches s.ibuf with
  | true | false =>
    simp only [State.fetchBytes, State.setInhibit_ibuf, h]
    rfl

theorem runInstruction_eq {s : State} {i : Instr} {rest : List Byte} (h : decode s.fetchBytes = .ok (i, rest)) :
    s.runInstruction = match exec i (s.setInhibit false) with
      | .next t => s.sequence t
      | .fault r => .fault r
      | .refused r => .refused r := by
  unfold State.runInstruction
  rewrite [h]
  rfl

section
variable {s t : State} {i : Instr}

/-- From a boundary on, the record of bus cycles is that of the instruction. -/
theorem exec_bus (hbus : s.bus = []) (h : exec i s = .next t) : ∃ n, Cycles i n s t t.bus := by
  have hcycles : cyclesOf s t = t.bus := by simp [cyclesOf, hbus]
  exact hcycles ▸ exec_cycles h

theorem exec_program_data {rest : List Byte} (hbus : s.bus = []) (hdec : decode s.fetchBytes = .ok (i, rest))
    (h : exec i s = .next t) :
    ((t.bus.filter fun c => c.kind == .p).map BusAccess.data).take ((encode i).length - 1) = (encode i).tail := by
  obtain ⟨hw, hbytes⟩ := decode_eq_ok hdec
  obtain ⟨hpos, -, -, hcount⟩ := objectCode i hw
  obtain ⟨n, hc⟩ := exec_bus hbus h
  have hmoved : (t.bus.filter fun c => c.kind == .p).map BusAccess.data =
      (programBytes i n s).map Prod.snd ++ [t.ibuf] := by
    have := congrArg (List.map Prod.snd) hc.program
    simpa [moved, Function.comp_def] using this
  have hlength : (encode i).length ≤ (programBytes i n s).length + 1 := by
    rw [← hc.length_program, addresses_eq, hc.program] at hcount
    simpa using hcount
  rw [hmoved, List.take_append_of_le_length (by simpa using Nat.sub_le_of_le_add hlength)]
  exact programBytes_data hw hbytes hlength hpos

theorem sequence_of_undisturbed {u : State} (hbus : s.bus = []) (h : exec i s = .next t)
    (hu : Undisturbed u (cycleCount i)) : u.sequence t = u.finish t := by
  obtain ⟨n, hc⟩ := exec_bus hbus h
  have hlength : t.bus.length = cycleCount i := by rw [cycleCount, ← hc.kinds, List.length_map]
  exact u.sequence_whole t (hlength ▸ hu)

end

/-- Settles O7: the decoded bytes are object code, which is what the program fetches move. -/
theorem stepRunsTheDecodedInstruction : Obligations.StepRunsTheDecodedInstruction := by
  unfold Obligations.StepRunsTheDecodedInstruction
  intro s i rest ⟨hreset, hrec, hrun⟩ hdec
  have hstep : step s = _ :=
    (step_instruction s hreset hrec (by simpa using hrun)).trans (runInstruction_eq hdec)
  have hbus : (s.sampleInputs.setInhibit false).bus = [] := s.sampleInputs_bus
  refine ⟨fun t ht => ⟨exec_program_data hbus (s.sampleInputs.fetchBytes_setInhibit false ▸ hdec) ht, fun hu => ?_⟩, fun f hf => ?fault, fun r hr => ?refused⟩
  case fault => rw [hstep, hf]
  case refused => rw [hstep, hr]
  rw [hstep, ht]
  have hmarked : s.sampleInputs.firstMarked t.bus = s.firstMarked t.bus := by simp [State.firstMarked]
  refine ⟨fun hnone => ?_, fun a ha => ?_⟩
  · exact (sequence_of_undisturbed hbus ht hu).trans (State.finish_next _ t (hmarked.trans hnone))
  · rw [← s.sampleInputs_pc]
    exact (sequence_of_undisturbed hbus ht hu).trans (State.finish_marked _ t a (hmarked.trans ha))

end Sys2Proof.Machine

/-! Decoding the object code of a well-formed instruction gives it back (R81, R97 to R100), block by block of the opcode
map. -/

namespace Sys2Proof

/-! ### The opcode map at the opcodes of the encoder -/

theorem opcodeAt_toNat : ∀ hi lo : Fin 16,
    (opcodeAt hi lo).toNat / 16 = hi ∧ (opcodeAt hi lo).toNat % 16 = lo := by decide

/-- A first byte other than `$9E` selects its row and column of page 1 (R97). -/
theorem decode_page1 {b : Byte} (hb : b ≠ 0x9E#8) (bs : List Byte) :
    decode (b :: bs) = decodePage1 b (b.toNat / 16) (b.toNat % 16) bs := by simp only [decode, if_neg hb]

/-- After `$9E` the second byte selects its row and column of page 2 (R98). -/
theorem decode_page2 (b : Byte) (bs : List Byte) :
    decode (0x9E#8 :: b :: bs) = decodePage2 b (b.toNat / 16) (b.toNat % 16) bs := rfl

/-- `$9E` stands in row `9` of the map. -/
theorem opcodeAt_ne_prefix : ∀ hi : Fin 16, hi ≠ 9 → ∀ lo : Fin 16, opcodeAt hi lo ≠ 0x9E#8 := by decide

theorem decode_opcodeAt (hi lo : Fin 16) (bs : List Byte) (h : hi ≠ 9 := by decide) :
    decode (opcodeAt hi lo :: bs) = decodePage1 (opcodeAt hi lo) hi lo bs := by
  obtain ⟨hhi, hlo⟩ := opcodeAt_toNat hi lo
  rw [decode_page1 (opcodeAt_ne_prefix hi h lo), hhi, hlo]

theorem decode_prefixed (hi lo : Fin 16) (bs : List Byte) :
    decode (0x9E#8 :: opcodeAt hi lo :: bs) = decodePage2 (opcodeAt hi lo) hi lo bs := by
  obtain ⟨hhi, hlo⟩ := opcodeAt_toNat hi lo
  rw [decode_page2, hhi, hlo]

theorem takeWord_bytes (k : Word → Instr) (v : Word) (bs : List Byte) :
    takeWord k (hiByte v :: loByte v :: bs) = .ok (k v, bs) := by
  rw [takeWord, take2, Machine.wordOf_hi_lo]

/-! ### The columns that a block of the map has -/

section
variable (bad : DecodeError) {lo : Nat}

theorem decodeMemRow_some {column : Option (MemMode → Instr)} {k : MemMode → Instr} (h : column = some k)
    (take : (MemMode → Instr) → List Byte → Decoded) : decodeMemRow bad column take = take k := by rw [h]; rfl

theorem decodeRow3_rmw {k : MemMode → Instr} (h : rmwColumn lo = some k) :
    decodeRow3 bad lo = take1 fun dd => k (.dir dd) := by
  unfold decodeRow3
  split
  case h_4 => rw [h]
  all_goals exact nomatch h

theorem decodeRow6_rmw {k : MemMode → Instr} (h : rmwColumn lo = some k) :
    decodeRow6 bad lo = take1 fun ff => k (.ix1 ff) := by
  unfold decodeRow6
  split
  case h_6 => rw [h]
  all_goals exact nomatch h

theorem decodeRow7_rmw {k : MemMode → Instr} (h : rmwColumn lo = some k) : decodeRow7 bad lo = take0 (k .ix) := by
  unfold decodeRow7
  split
  case h_6 => rw [h]
  all_goals exact nomatch h

theorem decodePage2_rmw (b : Byte) {k : MemMode → Instr} (h : rmwColumn lo = some k) :
    decodePage2 b 6 lo = take1 fun ff => k (.sp1 ff) := by
  simp only [decodePage2]
  split
  case h_3 => exact decodeMemRow_some _ h _
  all_goals exact nomatch h

theorem decodeRowA_read {k : Source → Instr} (h : readColumn lo = some k) :
    decodeRowA bad lo = take1 fun ii => k (.imm ii) := by
  unfold decodeRowA
  split
  case h_4 => rw [h]
  all_goals exact nomatch h

/-- JMP and JSR stand in columns of their own. -/
theorem memOrJumpColumn_mem {k : MemMode → Instr} (h : memColumn lo = some k) : memOrJumpColumn lo = some k := by
  unfold memOrJumpColumn
  split
  case h_3 => exact h
  all_goals exact nomatch h

theorem memColumn_read {k : Source → Instr} (h : readColumn lo = some k) :
    memColumn lo = some fun m => k (.mem m) := by
  unfold memColumn
  split
  case h_3 => rw [h]; rfl
  all_goals exact nomatch h

end

/-! ### The blocks of the encoder -/

section
variable {lo : Fin 16} (rest : List Byte)

theorem decode_encodeMem_jump {k : MemMode → Instr} (h : memOrJumpColumn lo = some k) {m : MemMode}
    (hm : m.isJump = true) : decode (encodeMem (BitVec.ofNat 8 lo) m ++ rest) = .ok (k m, rest) := by
  cases m with
  | dir dd => exact (decode_opcodeAt 0xB lo _).trans (congrFun (decodeMemRow_some _ h _) _)
  | ext a =>
    exact (decode_opcodeAt 0xC lo _).trans ((congrFun (decodeMemRow_some _ h _) _).trans (takeWord_bytes _ a rest))
  | ix2 o =>
    exact (decode_opcodeAt 0xD lo _).trans ((congrFun (decodeMemRow_some _ h _) _).trans (takeWord_bytes _ o rest))
  | ix1 ff => exact (decode_opcodeAt 0xE lo _).trans (congrFun (decodeMemRow_some _ h _) _)
  | ix => exact (decode_opcodeAt 0xF lo _).trans (congrFun (decodeMemRow_some _ h _) _)
  | sp2 _ | sp1 _ => exact nomatch hm

theorem decode_encodeMem {k : MemMode → Instr} (h : memColumn lo = some k) (m : MemMode) :
    decode (encodeMem (BitVec.ofNat 8 lo) m ++ rest) = .ok (k m, rest) := by
  cases m with
  | sp2 o =>
    exact (decode_prefixed 0xD lo _).trans ((congrFun (decodeMemRow_some _ h _) _).trans (takeWord_bytes _ o rest))
  | sp1 ff => exact (decode_prefixed 0xE lo _).trans (congrFun (decodeMemRow_some _ h _) _)
  | dir _ | ext _ | ix2 _ | ix1 _ | ix => exact decode_encodeMem_jump rest (memOrJumpColumn_mem h) rfl

theorem decode_encodeSource {k : Source → Instr} (h : readColumn lo = some k) (src : Source) :
    decode (encodeSource (BitVec.ofNat 8 lo) src ++ rest) = .ok (k src, rest) := by
  cases src with
  | imm ii => exact (decode_opcodeAt 0xA lo _).trans (congrFun (decodeRowA_read _ h) _)
  | mem m => exact decode_encodeMem rest (memColumn_read h) m

theorem decode_encodeRmw {k : MemMode → Instr} (h : rmwColumn lo = some k) {m : MemMode} (hm : m.isRmw = true) :
    decode (encodeRmw (BitVec.ofNat 8 lo) m ++ rest) = .ok (k m, rest) := by
  cases m with
  | dir dd => exact (decode_opcodeAt 3 lo _).trans (congrFun (decodeRow3_rmw _ h) _)
  | ix1 ff => exact (decode_opcodeAt 6 lo _).trans (congrFun (decodeRow6_rmw _ h) _)
  | ix => exact (decode_opcodeAt 7 lo _).trans (congrFun (decodeRow7_rmw _ h) _)
  | sp1 ff => exact (decode_prefixed 6 lo _).trans (congrFun (decodePage2_rmw _ h) _)
  | ext _ | ix2 _ | sp2 _ => exact nomatch hm

end

/-! ### The bit numbers of rows `0` and `1` -/

/-- Rows `0` and `1` have the two senses of each bit number in turn (R96). -/
theorem bitOpcode_column : ∀ n : Fin 8, ∃ even odd : Fin 16,
    (even.val % 2 = 0 ∧ n = Fin.ofNat 8 (even / 2) ∧ bitOpcode 0x00#8 n = opcodeAt 0 even ∧
      bitOpcode 0x10#8 n = opcodeAt 1 even) ∧
    (odd.val % 2 ≠ 0 ∧ n = Fin.ofNat 8 (odd / 2) ∧ bitOpcode 0x01#8 n = opcodeAt 0 odd ∧
      bitOpcode 0x11#8 n = opcodeAt 1 odd) := by decide

theorem decode_row0 (lo : Fin 16) (dd rr : Byte) (rest : List Byte) :
    decode (opcodeAt 0 lo :: dd :: rr :: rest) = .ok (if lo.val % 2 = 0 then .brset (Fin.ofNat 8 (lo / 2)) dd rr
      else .brclr (Fin.ofNat 8 (lo / 2)) dd rr, rest) := decode_opcodeAt 0 lo _

theorem decode_row1 (lo : Fin 16) (dd : Byte) (rest : List Byte) :
    decode (opcodeAt 1 lo :: dd :: rest) = .ok (if lo.val % 2 = 0 then .bset (Fin.ofNat 8 (lo / 2)) dd
      else .bclr (Fin.ofNat 8 (lo / 2)) dd, rest) := decode_opcodeAt 1 lo _

section
variable (n : Fin 8) (dd rr : Byte) (rest : List Byte)

theorem decode_bset : decode (bitOpcode 0x10#8 n :: dd :: rest) = .ok (.bset n dd, rest) := by
  obtain ⟨even, -, ⟨heven, hn, -, hopcode⟩, -⟩ := bitOpcode_column n
  rw [hopcode, decode_row1, if_pos heven, ← hn]

theorem decode_bclr : decode (bitOpcode 0x11#8 n :: dd :: rest) = .ok (.bclr n dd, rest) := by
  obtain ⟨-, odd, -, hodd, hn, -, hopcode⟩ := bitOpcode_column n
  rw [hopcode, decode_row1, if_neg hodd, ← hn]

theorem decode_brset : decode (bitOpcode 0x00#8 n :: dd :: rr :: rest) = .ok (.brset n dd rr, rest) := by
  obtain ⟨even, -, ⟨heven, hn, hopcode, -⟩, -⟩ := bitOpcode_column n
  rw [hopcode, decode_row0, if_pos heven, ← hn]

theorem decode_brclr : decode (bitOpcode 0x01#8 n :: dd :: rr :: rest) = .ok (.brclr n dd rr, rest) := by
  obtain ⟨-, odd, -, hodd, hn, hopcode, -⟩ := bitOpcode_column n
  rw [hopcode, decode_row0, if_neg hodd, ← hn]

end

/-! ### The statements -/

/-- Settles O1: the blocks of the map by their columns, every other opcode by its own row. -/
theorem decodeOfEncode : Obligations.DecodeOfEncode := by
  unfold Obligations.DecodeOfEncode
  intro i rest hw
  cases i with
  | brset n dd rr => exact decode_brset n dd rr rest
  | brclr n dd rr => exact decode_brclr n dd rr rest
  | bset n dd => exact decode_bset n dd rest
  | bclr n dd => exact decode_bclr n dd rest
  | neg m => exact decode_encodeRmw (lo := 0x0) rest rfl hw
  | com m => exact decode_encodeRmw (lo := 0x3) rest rfl hw
  | lsr m => exact decode_encodeRmw (lo := 0x4) rest rfl hw
  | ror m => exact decode_encodeRmw (lo := 0x6) rest rfl hw
  | asr m => exact decode_encodeRmw (lo := 0x7) rest rfl hw
  | lsl m => exact decode_encodeRmw (lo := 0x8) rest rfl hw
  | rol m => exact decode_encodeRmw (lo := 0x9) rest rfl hw
  | dec m => exact decode_encodeRmw (lo := 0xA) rest rfl hw
  | inc m => exact decode_encodeRmw (lo := 0xC) rest rfl hw
  | tst m => exact decode_encodeRmw (lo := 0xD) rest rfl hw
  | clr m => exact decode_encodeRmw (lo := 0xF) rest rfl hw
  | sub src => exact decode_encodeSource (lo := 0x0) rest rfl src
  | cmp src => exact decode_encodeSource (lo := 0x1) rest rfl src
  | sbc src => exact decode_encodeSource (lo := 0x2) rest rfl src
  | cpx src => exact decode_encodeSource (lo := 0x3) rest rfl src
  | and src => exact decode_encodeSource (lo := 0x4) rest rfl src
  | bit src => exact decode_encodeSource (lo := 0x5) rest rfl src
  | lda src => exact decode_encodeSource (lo := 0x6) rest rfl src
  | eor src => exact decode_encodeSource (lo := 0x8) rest rfl src
  | adc src => exact decode_encodeSource (lo := 0x9) rest rfl src
  | ora src => exact decode_encodeSource (lo := 0xA) rest rfl src
  | add src => exact decode_encodeSource (lo := 0xB) rest rfl src
  | ldx src => exact decode_encodeSource (lo := 0xE) rest rfl src
  | sta m => exact decode_encodeMem (lo := 0x7) rest rfl m
  | stx m => exact decode_encodeMem (lo := 0xF) rest rfl m
  | jmp m => exact decode_encodeMem_jump (lo := 0xC) rest rfl hw
  | jsr m => exact decode_encodeMem_jump (lo := 0xD) rest rfl hw
  | cbeq m rr =>
    cases m with
    | dir _ | ix1Plus _ | ixPlus | sp1 _ => rfl
  | dbnz m rr =>
    cases m with
    | dir _ | ix1 _ | ix | sp1 _ => rfl
    | ext _ | ix2 _ | sp2 _ => exact nomatch hw
  | ldhx src =>
    cases src with
    | imm w => exact takeWord_bytes (fun w => .ldhx (.imm w)) w rest
    | dir _ => rfl
  | cphx src =>
    cases src with
    | imm w => exact takeWord_bytes (fun w => .cphx (.imm w)) w rest
    | dir _ => rfl
  | mov f =>
    cases f with
    | dirDir _ _ | dirIxPlus _ | immDir _ _ | ixPlusDir _ => rfl
  | _ => rfl

/-- Settles O2. -/
theorem decodedIsEncoded : Obligations.DecodedIsEncoded := by
  unfold Obligations.DecodedIsEncoded
  intro bs rest i h
  exact decode_eq_ok h

/-- Settles O4. -/
theorem writtenOutWords : Obligations.WrittenOutWords := by
  unfold Obligations.WrittenOutWords
  exact ⟨rfl, rfl, rfl, rfl, rfl, rfl, rfl⟩

end Sys2Proof

/-! Effective addresses (R86 to R92), and the instructions with addressing modes of their own: CBEQ and MOV (R93,
R94). -/

namespace Sys2Proof.Machine

open Sys2Proof.Safety

/-! ### Effective addresses -/

theorem toNat_wordOf (hi lo : Byte) : (wordOf hi lo).toNat = hi.toNat * 256 + lo.toNat := by
  rw [wordOf, BitVec.toNat_append, ← Nat.shiftLeft_add_eq_or_of_lt lo.isLt, Nat.shiftLeft_eq]

theorem toNat_zext16 (b : Byte) : (zext16 b).toNat = b.toNat := by
  rw [zext16, BitVec.toNat_setWidth, Nat.mod_eq_of_lt (by omega)]

theorem toNat_hx (s : State) : s.hx.toNat = s.h.toNat * 256 + s.x.toNat := toNat_wordOf s.h s.x

/-- Settles O5: the words of the formulas as numbers. -/
theorem effectiveAddresses : Obligations.EffectiveAddresses := by
  unfold Obligations.EffectiveAddresses
  intro s b c hx address
  have hhx : s.hx.toNat = hx := toNat_hx s
  have hbyte : b.toNat < 65536 := by omega
  have hword : b.toNat * 256 + c.toNat < 65536 := by omega
  have hindex : hx < 65536 := hhx ▸ s.hx.isLt
  refine ⟨⟨.dir b, rfl, ?dir⟩, ⟨.ext (wordOf b c), rfl, ?ext⟩, ⟨.ix, rfl, ?ix⟩, ⟨.ix1 b, rfl, ?ix1⟩,
    ⟨.ix2 (wordOf b c), rfl, ?ix2⟩, ⟨.sp1 b, rfl, ?sp1⟩, ⟨.sp2 (wordOf b c), rfl, ?sp2⟩⟩
  case dir => rw [effectiveAddress, toNat_zext16, Nat.mod_eq_of_lt hbyte]
  case ext => rw [effectiveAddress, toNat_wordOf, Nat.mod_eq_of_lt hword]
  case ix => rw [effectiveAddress, hhx, Nat.mod_eq_of_lt hindex]
  case ix1 => rw [effectiveAddress, BitVec.toNat_add, hhx, toNat_zext16]
  case ix2 => rw [effectiveAddress, BitVec.toNat_add, hhx, toNat_wordOf]
  case sp1 => rw [effectiveAddress, BitVec.toNat_add, toNat_zext16]
  case sp2 => rw [effectiveAddress, BitVec.toNat_add, toNat_wordOf]

/-! ### CBEQ -/

/-- `H:X` after CBEQ on a memory byte (R93, R94, R193). -/
def cbeqIndex (m : CbeqMode) (hx : Word) : Word :=
  match m with
  | .ix1Plus _ | .ixPlus => hx + 1#16
  | .dir _ | .sp1 _ => hx

section
variable (m : CbeqMode) (s : State)

@[simp] theorem cbeqIncrement_a : (cbeqIncrement m s).a = s.a := by cases m <;> rfl
@[simp] theorem cbeqIncrement_sp : (cbeqIncrement m s).sp = s.sp := by cases m <;> rfl
@[simp] theorem cbeqIncrement_pc : (cbeqIncrement m s).pc = s.pc := by cases m <;> rfl
@[simp] theorem cbeqIncrement_ccr : (cbeqIncrement m s).ccr = s.ccr := by cases m <;> rfl
@[simp] theorem cbeqIncrement_mem : (cbeqIncrement m s).mem = s.mem := by cases m <;> rfl
@[simp] theorem cbeqIncrement_hx : (cbeqIncrement m s).hx = cbeqIndex m s.hx := by
  cases m with
  | dir _ | sp1 _ => rfl
  | ix1Plus _ | ixPlus => exact s.setHx_hx _

end

theorem hx_congr {s t : State} (hh : t.h = s.h) (hx : t.x = s.x) : t.hx = s.hx := by rw [State.hx, State.hx, hh, hx]

/-- What a compare-and-branch leaves: it goes past its `len` bytes, from there by `rr` if `equal`, and writes `H:X`
and nothing else. -/
def ComparesAndBranches (i : Instr) (s : State) (rr : Byte) (equal : Bool) (hx : Word) (len : Nat) : Prop :=
  ∃ t, exec i s = .next t ∧
    t.pc = (if equal then s.pc + BitVec.ofNat 16 len + sext16 rr else s.pc + BitVec.ofNat 16 len) ∧
    t.a = s.a ∧ t.hx = hx ∧ t.sp = s.sp ∧ t.ccr = s.ccr ∧ SameBytes s t ∧ SameSurroundings s t

/-- The forms on a memory byte, against `A` (R193). -/
theorem cbeq_comparesAndBranches (m : CbeqMode) (rr : Byte) (s : State) :
    ComparesAndBranches (.cbeq m rr) s rr (s.a == cbeqValue m s) (cbeqIndex m s.hx) (cbeqLength m) := by
  have hread : Continues s (((s.fetch (cbeqLength m - 1)).load .r (cbeqAddress m s)).dummy (cbeqAddress m s)) :=
    (((Continues.refl s).fetch _).load .r _).dummy _
  refine ⟨_, rfl, by simp, by simp, ?index, by simp, by simp, sameBytes_of_mem (by simp),
    ((hread.cbeqIncrement m).branch _ _ rr).2⟩
  case index =>
    rw [hx_congr (State.branch_h _ _ _ _) (State.branch_x _ _ _ _), cbeqIncrement_hx,
      hx_congr (s := s) (by simp) (by simp)]

/-- CBEQA and CBEQX, whose operand is a byte of the instruction (R193). -/
theorem immediate_comparesAndBranches {i : Instr} {s : State} {rr : Byte} {equal : Bool}
    (h : exec i s = .next ((s.fetchThenDummy 2).branch equal 3 rr)) : ComparesAndBranches i s rr equal s.hx 3 :=
  ⟨_, h, by simp, by simp, hx_congr (by simp) (by simp), by simp, by simp, sameBytes_of_mem (by simp),
    (((Continues.refl s).fetchThenDummy 2).branch _ 3 rr).2⟩

/-- Settles O37: the six forms, each with the operand that it compares. -/
theorem compareAndBranch : Obligations.CompareAndBranch := by
  unfold Obligations.CompareAndBranch
  intro s rr i equal hx len hform
  have hspec : ∃ b : Bool, (equal ↔ b = true) ∧ ComparesAndBranches i s rr b hx len := by
    obtain ⟨dd, rfl, hequal, rfl, rfl⟩ | ⟨ff, rfl, hequal, rfl, rfl⟩ | ⟨rfl, hequal, rfl, rfl⟩ |
      ⟨ff, rfl, hequal, rfl, rfl⟩ | ⟨ii, rfl, hequal, rfl, rfl⟩ | ⟨ii, rfl, hequal, rfl, rfl⟩ := hform
    · exact ⟨_, hequal.trans beq_iff_eq.symm, cbeq_comparesAndBranches (.dir dd) rr s⟩
    · exact ⟨_, hequal.trans beq_iff_eq.symm, cbeq_comparesAndBranches (.ix1Plus ff) rr s⟩
    · exact ⟨_, hequal.trans beq_iff_eq.symm, cbeq_comparesAndBranches .ixPlus rr s⟩
    · exact ⟨_, hequal.trans beq_iff_eq.symm, cbeq_comparesAndBranches (.sp1 ff) rr s⟩
    · exact ⟨_, hequal.trans beq_iff_eq.symm, immediate_comparesAndBranches rfl⟩
    · exact ⟨_, hequal.trans beq_iff_eq.symm, immediate_comparesAndBranches rfl⟩
  obtain ⟨b, hb, t, ht, hpc, ha, hhx, hsp, hccr, hbytes, hsame⟩ := hspec
  refine ⟨t, ht, fun he => exec_goesTo ht ?taken, fun he => exec_goesTo ht ?past, ha, hhx, hsp, hccr, hbytes, hsame⟩
  case taken => rw [hpc, if_pos (hb.mp he)]; rfl
  case past => rw [hpc, if_neg fun h => he (hb.mpr h)]

/-! ### MOV -/

theorem isRam_of_sameSurroundings {s t : State} (h : SameSurroundings s t) (b : Word) : t.isRam b = s.isRam b := by
  obtain ⟨-, -, -, -, hparams⟩ := h
  rw [State.isRam, State.isRam, hparams]

/-- A byte stored once, before and after cycles that store nothing. -/
theorem Continues.storedAt {s t u : State} (h : Continues s t) (hm : s.mem.wf = true) {b : Word} {v : Byte}
    (hbefore : t.mem = s.mem) (hafter : u.mem = (t.store .w b v).mem) : StoredAt s u b v :=
  storedAt_of_memRead fun c => by
    rw [hafter, State.store_memRead t (hbefore ▸ hm) (.inl rfl), hbefore, isRam_of_sameSurroundings h.2]

/-- What MOV leaves of the state it starts in: `v` at `dst` with its flags, and `H:X` (R214). -/
def MovesByte (f : MoveForm) (s : State) (v : Byte) (dst hx : Word) (len : Nat) : Prop :=
  ∃ t, exec (.mov f) s = .next t ∧ StoredAt s t dst v ∧ t.a = s.a ∧ t.hx = hx ∧ t.sp = s.sp ∧
    t.ccr = logic8 v s.ccr ∧ t.pc = s.pc + BitVec.ofNat 16 len ∧ SameSurroundings s t

section
variable {s : State} (hm : s.mem.wf = true)
include hm

theorem mov_dirDir (src dst : Byte) :
    MovesByte (.dirDir src dst) s ((s.fetch 1).read (zext16 src)) (zext16 dst) s.hx 3 := by
  have read : Continues s (((s.fetch 1).load .r (zext16 src)).fetchByte 2) :=
    (((Continues.refl s).fetch 1).load .r _).fetchByte 2
  exact ⟨_, rfl, read.storedAt hm (by simp) (by simp), by simp, hx_congr (by simp) (by simp), by simp, by simp, by simp,
    (((read.write _ _).advance 3).setCcr _).2⟩

theorem mov_dirIxPlus (src : Byte) :
    MovesByte (.dirIxPlus src) s ((s.fetch 1).read (zext16 src)) s.hx (s.hx + 1#16) 2 := by
  have read : Continues s ((s.fetch 1).load .r (zext16 src)) := ((Continues.refl s).fetch 1).load .r _
  exact ⟨_, rfl, read.storedAt hm (by simp) (by simp), by simp, by simp [State.hx], by simp, by simp, by simp,
    ((((read.write _ _).advance 2).setHx _).setCcr _).2⟩

theorem mov_immDir (ii dst : Byte) : MovesByte (.immDir ii dst) s ii (zext16 dst) s.hx 3 := by
  have fetched : Continues s (s.fetch 2) := (Continues.refl s).fetch 2
  exact ⟨_, rfl, fetched.storedAt hm (by simp) (by simp), by simp, hx_congr (by simp) (by simp), by simp, by simp,
    by simp, (((fetched.write _ _).advance 3).setCcr _).2⟩

theorem mov_ixPlusDir (dst : Byte) :
    MovesByte (.ixPlusDir dst) s ((s.fetch 1).read s.hx) (zext16 dst) (s.hx + 1#16) 2 := by
  have read : Continues s ((s.fetch 1).load .r s.hx) := ((Continues.refl s).fetch 1).load .r _
  exact ⟨_, rfl, read.storedAt hm (by simp) (by simp), by simp, by simp [State.hx], by simp, by simp, by simp,
    ((((read.write _ _).advance 2).setHx _).setCcr _).2⟩

end

/-- Settles O43, form by form. -/
theorem moveInstruction : Obligations.MoveInstruction := by
  unfold Obligations.MoveInstruction
  intro s f v dst hx len hm hform
  have hspec : MovesByte f s v dst hx len := by
    obtain ⟨p, q, rfl, rfl, rfl, rfl, rfl⟩ | ⟨p, rfl, rfl, rfl, rfl, rfl⟩ | ⟨ii, q, rfl, rfl, rfl, rfl, rfl⟩ |
      ⟨q, rfl, rfl, rfl, rfl, rfl⟩ := hform
    · exact mov_dirDir hm p q
    · exact mov_dirIxPlus hm p
    · exact mov_immDir hm v q
    · exact mov_ixPlusDir hm q
  obtain ⟨t, ht, hstored, ha, hhx, hsp, hccr, hpc, hsame⟩ := hspec
  exact ⟨t, ht, hstored, ha, hhx, hsp, hccr, exec_goesTo ht hpc, hsame⟩

end Sys2Proof.Machine

/-! The opcode alone fixes what the decoder answers, up to operand values: the rejection, or the length and the duration
of the instruction (R80, R100, R103, R304). -/

namespace Sys2Proof

open Machine Safety

/-! ### Answers alike up to operand values -/

/-- Instructions of one length and one duration. -/
def Alike (i j : Instr) : Prop := (encode i).length = (encode j).length ∧ cycleCount i = cycleCount j

theorem Alike.trans {i j k : Instr} (h : Alike i j) (h' : Alike j k) : Alike i k := ⟨h.1.trans h'.1, h.2.trans h'.2⟩

theorem Alike.symm {i j : Instr} (h : Alike i j) : Alike j i := ⟨h.1.symm, h.2.symm⟩

/-- Answers of the decoder that are one rejection, or two instructions alike. -/
inductive Agree : Decoded → Decoded → Prop
  | ok {i j : Instr} (rest rest' : List Byte) (h : Alike i j) : Agree (.ok (i, rest)) (.ok (j, rest'))
  | error (e : DecodeError) : Agree (.error e) (.error e)

/-- `decoder` answers alike whatever operand bytes it is given. -/
def FixedByOpcode (decoder : List Byte → Decoded) : Prop :=
  ∀ (b c : Byte) (bs : List Byte), Agree (decoder (b :: c :: bs)) (decoder [0#8, 0#8])

namespace FixedByOpcode

theorem reject (e : DecodeError) : FixedByOpcode fun _ => .error e := fun _ _ _ => .error e

theorem take0 (i : Instr) : FixedByOpcode (Sys2Proof.take0 i) := fun _ _ _ => .ok _ _ ⟨rfl, rfl⟩

theorem take1 {k : Byte → Instr} (h : ∀ b, Alike (k b) (k 0#8)) : FixedByOpcode (Sys2Proof.take1 k) :=
  fun b _ _ => .ok _ _ (h b)

theorem take2 {k : Byte → Byte → Instr} (h : ∀ b c, Alike (k b c) (k 0#8 0#8)) : FixedByOpcode (Sys2Proof.take2 k) :=
  fun b c _ => .ok _ _ (h b c)

theorem takeWord {k : Word → Instr} (h : ∀ v, Alike (k v) (k 0#16)) : FixedByOpcode (Sys2Proof.takeWord k) :=
  take2 fun _ _ => h _

theorem agree {decoder : List Byte → Decoded} (h : FixedByOpcode decoder) :
    ∀ {bs : List Byte}, 2 ≤ bs.length → Agree (decoder bs) (decoder [0#8, 0#8])
  | b :: c :: bs, _ => h b c bs

theorem decodeMemRow {bad : DecodeError} {column : Option (MemMode → Instr)}
    {take : (MemMode → Instr) → List Byte → Decoded} (h : ∀ k, column = some k → FixedByOpcode (take k)) :
    FixedByOpcode (decodeMemRow bad column take) := by
  cases column with
  | some k => exact h k rfl
  | none => exact reject bad

end FixedByOpcode

/-! ### Columns of the opcode map -/

/-- The mode with zero for its operand. -/
def MemMode.blank : MemMode → MemMode
  | .dir _ => .dir 0#8
  | .ext _ => .ext 0#16
  | .ix2 _ => .ix2 0#16
  | .ix1 _ => .ix1 0#8
  | .ix => .ix
  | .sp2 _ => .sp2 0#16
  | .sp1 _ => .sp1 0#8

theorem length_encodeRmw_blank (k : Byte) (m : MemMode) : (encodeRmw k m).length = (encodeRmw k m.blank).length := by
  cases m <;> rfl

theorem length_encodeMem_blank (k : Byte) (m : MemMode) : (encodeMem k m).length = (encodeMem k m.blank).length := by
  cases m <;> rfl

theorem memCode_blank (k : BusCycle) (m : MemMode) : memCode k m = memCode k m.blank := by cases m <;> rfl
theorem rmwCode_blank (m : MemMode) : rmwCode m = rmwCode m.blank := by cases m <;> rfl
theorem jmpCode_blank (m : MemMode) : jmpCode m = jmpCode m.blank := by cases m <;> rfl
theorem jsrCode_blank (m : MemMode) : jsrCode m = jsrCode m.blank := by cases m <;> rfl

section
variable {lo : Nat}

theorem rmwColumn_alike {k : MemMode → Instr} (h : rmwColumn lo = some k) (m : MemMode) : Alike (k m) (k m.blank) := by
  have hcode : cycleCode (k m) = cycleCode (k m.blank) := by
    unfold rmwColumn at h
    split at h
    case h_10 => cases h; exact memCode_blank .r m
    case h_11 => cases h; exact memCode_blank .w m
    case h_12 => cases h
    all_goals cases h; exact rmwCode_blank m
  obtain ⟨-, hencode⟩ := rmwColumn_some h
  exact ⟨by rw [hencode, hencode, length_encodeRmw_blank], congrArg List.length hcode⟩

theorem cycleCode_readColumn {k : Source → Instr} (h : readColumn lo = some k) (src : Source) :
    cycleCode (k src) = sourceCode src := by
  unfold readColumn at h
  split at h
  case h_13 => cases h
  all_goals cases h; rfl

theorem memOrJumpColumn_alike {k : MemMode → Instr} (h : memOrJumpColumn lo = some k) (m : MemMode) :
    Alike (k m) (k m.blank) := by
  obtain ⟨-, hencode⟩ := memOrJumpColumn_some h
  have hcode : cycleCode (k m) = cycleCode (k m.blank) := by
    unfold memOrJumpColumn memColumn at h
    split at h
    case h_1 => cases h; exact jmpCode_blank m
    case h_2 => cases h; exact jsrCode_blank m
    case h_3 =>
      split at h
      case h_1 | h_2 => cases h; exact memCode_blank .w m
      case h_3 =>
        obtain ⟨k, hk, rfl⟩ := Option.map_eq_some_iff.mp h
        rw [cycleCode_readColumn hk, cycleCode_readColumn hk]
        exact memCode_blank .r m
  exact ⟨by rw [hencode, hencode, length_encodeMem_blank], congrArg List.length hcode⟩

theorem memColumn_alike {k : MemMode → Instr} (h : memColumn lo = some k) (m : MemMode) : Alike (k m) (k m.blank) :=
  memOrJumpColumn_alike (memOrJumpColumn_mem h) m

theorem readColumn_alike {k : Source → Instr} (h : readColumn lo = some k) (ii : Byte) :
    Alike (k (.imm ii)) (k (.imm 0#8)) := by
  obtain ⟨-, hencode⟩ := readColumn_some h
  refine ⟨by rw [hencode, hencode]; rfl, ?_⟩
  rw [cycleCount, cycleCount, cycleCode_readColumn h, cycleCode_readColumn h]
  rfl

/-- Every simple branch is two bytes and three cycles (R170). -/
theorem branchColumn_timing (lo : Nat) (rr : Byte) :
    (encode (branchColumn lo rr)).length = 2 ∧ cycleCount (branchColumn lo rr) = 3 := by
  unfold branchColumn
  split
  all_goals exact ⟨rfl, rfl⟩

end

/-! ### Rows of the opcode map -/

namespace FixedByOpcode

section
variable (bad : DecodeError) (lo : Nat)

theorem row0 : FixedByOpcode (Sys2Proof.take2 fun dd rr =>
    if lo % 2 = 0 then .brset (Fin.ofNat 8 (lo / 2)) dd rr else .brclr (Fin.ofNat 8 (lo / 2)) dd rr) := by
  split
  · exact take2 fun _ _ => ⟨rfl, rfl⟩
  · exact take2 fun _ _ => ⟨rfl, rfl⟩

theorem row1 : FixedByOpcode (Sys2Proof.take1 fun dd =>
    if lo % 2 = 0 then .bset (Fin.ofNat 8 (lo / 2)) dd else .bclr (Fin.ofNat 8 (lo / 2)) dd) := by
  split
  · exact take1 fun _ => ⟨rfl, rfl⟩
  · exact take1 fun _ => ⟨rfl, rfl⟩

theorem row2 : FixedByOpcode (Sys2Proof.take1 (branchColumn lo)) := take1 fun rr =>
  ⟨(branchColumn_timing lo rr).1.trans (branchColumn_timing lo 0#8).1.symm,
    (branchColumn_timing lo rr).2.trans (branchColumn_timing lo 0#8).2.symm⟩

theorem row3 : FixedByOpcode (decodeRow3 bad lo) := by
  unfold decodeRow3
  split
  case h_1 | h_3 => exact take2 fun _ _ => ⟨rfl, rfl⟩
  case h_2 => exact take1 fun _ => ⟨rfl, rfl⟩
  case h_4 =>
    cases hk : rmwColumn lo with
    | none => exact reject bad
    | some k => exact take1 fun dd => rmwColumn_alike hk (.dir dd)

theorem row4 : FixedByOpcode (decodeRow4 lo) := by
  unfold decodeRow4
  split
  case h_2 | h_15 => exact take2 fun _ _ => ⟨rfl, rfl⟩
  case h_6 => exact takeWord fun _ => ⟨rfl, rfl⟩
  case h_12 => exact take1 fun _ => ⟨rfl, rfl⟩
  all_goals exact take0 _

theorem row5 : FixedByOpcode (decodeRow5 lo) := by
  unfold decodeRow5
  split
  case h_2 => exact take2 fun _ _ => ⟨rfl, rfl⟩
  case h_6 | h_12 | h_15 => exact take1 fun _ => ⟨rfl, rfl⟩
  all_goals exact take0 _

theorem row6 : FixedByOpcode (decodeRow6 bad lo) := by
  unfold decodeRow6
  split
  case h_1 | h_4 | h_5 => exact take2 fun _ _ => ⟨rfl, rfl⟩
  case h_2 => exact take0 _
  case h_3 => exact takeWord fun _ => ⟨rfl, rfl⟩
  case h_6 =>
    cases hk : rmwColumn lo with
    | none => exact reject bad
    | some k => exact take1 fun ff => rmwColumn_alike hk (.ix1 ff)

theorem row7 : FixedByOpcode (decodeRow7 bad lo) := by
  unfold decodeRow7
  split
  case h_2 => exact take0 _
  case h_6 =>
    cases rmwColumn lo with
    | none => exact reject bad
    | some k => exact take0 _
  all_goals exact take1 fun _ => ⟨rfl, rfl⟩

theorem row8 : FixedByOpcode (decodeRow8 bad lo) := by
  unfold decodeRow8
  split
  case h_15 => exact reject bad
  all_goals exact take0 _

theorem row9 : FixedByOpcode (decodeRow9 bad lo) := by
  unfold decodeRow9
  split
  case h_1 | h_2 | h_3 | h_4 => exact take1 fun _ => ⟨rfl, rfl⟩
  case h_15 => exact reject bad
  all_goals exact take0 _

theorem rowA : FixedByOpcode (decodeRowA bad lo) := by
  unfold decodeRowA
  split
  case h_4 =>
    cases hk : readColumn lo with
    | none => exact reject bad
    | some k => exact take1 (readColumn_alike hk)
  all_goals exact take1 fun _ => ⟨rfl, rfl⟩

/-! ### The two pages -/

theorem page1 (b : Byte) (hi : Nat) : FixedByOpcode (decodePage1 b hi lo) := by
  unfold decodePage1
  split
  case h_1 => exact row0 lo
  case h_2 => exact row1 lo
  case h_3 => exact row2 lo
  case h_4 => exact row3 _ lo
  case h_5 => exact row4 lo
  case h_6 => exact row5 lo
  case h_7 => exact row6 _ lo
  case h_8 => exact row7 _ lo
  case h_9 => exact row8 _ lo
  case h_10 => exact row9 _ lo
  case h_11 => exact rowA _ lo
  all_goals refine decodeMemRow fun k hk => ?_
  case h_12 => exact take1 fun dd => memOrJumpColumn_alike hk (.dir dd)
  case h_13 => exact takeWord fun a => memOrJumpColumn_alike hk (.ext a)
  case h_14 => exact takeWord fun o => memOrJumpColumn_alike hk (.ix2 o)
  case h_15 => exact take1 fun ff => memOrJumpColumn_alike hk (.ix1 ff)
  case h_16 => exact take0 _

theorem page2 (b : Byte) (hi : Nat) : FixedByOpcode (decodePage2 b hi lo) := by
  unfold decodePage2
  split
  case h_1 =>
    split
    case h_1 | h_2 => exact take2 fun _ _ => ⟨rfl, rfl⟩
    case h_3 => exact decodeMemRow fun k hk => take1 fun ff => rmwColumn_alike hk (.sp1 ff)
  case h_2 => exact decodeMemRow fun k hk => takeWord fun o => memColumn_alike hk (.sp2 o)
  case h_3 => exact decodeMemRow fun k hk => take1 fun ff => memColumn_alike hk (.sp1 ff)
  case h_4 => exact reject _

end

/-- The first byte fixes the answer when it is not `$9E`. -/
theorem first {b : Byte} (hb : b ≠ 0x9E#8) : FixedByOpcode fun bs => decode (b :: bs) := by
  simp only [decode_page1 hb]
  exact page1 _ b _

/-- After `$9E` the second byte fixes the answer. -/
theorem prefixed (b : Byte) : FixedByOpcode fun bs => decode (0x9E#8 :: b :: bs) := page2 _ b _

end FixedByOpcode

/-! ### Rejections -/

/-- The reason for a rejection. -/
def rejection : Decoded → Option DecodeError
  | .ok _ => none
  | .error e => some e

theorem rejection_eq_some {d : Decoded} {e : DecodeError} : rejection d = some e ↔ d = .error e := by
  cases d <;> simp [rejection]

theorem rejection_eq_none {d : Decoded} (h : rejection d = none) : ∃ i rest, d = .ok (i, rest) := by
  cases d with
  | ok answer => exact ⟨answer.1, answer.2, rfl⟩
  | error e => cases h

theorem Agree.rejection_eq {d d' : Decoded} (h : Agree d d') : rejection d = rejection d' := by
  cases h <;> rfl

/-- The first bytes that are rejected (R97, R103). -/
theorem rejection_first : ∀ b : Byte, b ≠ 0x9E#8 → rejection (decode [b, 0#8, 0#8]) =
    if b ∈ undefinedFirst then some (.illegalOpcode b) else none := by decide

/-- The second bytes that are rejected after `$9E` (R98, R103). -/
theorem rejection_prefixed : ∀ b : Byte, rejection (decode [0x9E#8, b, 0#8, 0#8]) =
    if b ∈ pageTwo then none else some (.illegalPrefixed b) := by decide

/-- What the decoder rejects of four bytes, whatever the operand bytes are (R97, R98, R103). -/
theorem rejection_decode (b0 b1 b2 b3 : Byte) : rejection (decode [b0, b1, b2, b3]) =
    if b0 = 0x9E#8 then if b1 ∈ pageTwo then none else some (.illegalPrefixed b1)
    else if b0 ∈ undefinedFirst then some (.illegalOpcode b0) else none := by
  split
  case isTrue h =>
    subst h
    exact (FixedByOpcode.prefixed b1 b2 b3 []).rejection_eq.trans (rejection_prefixed b1)
  case isFalse h => exact (FixedByOpcode.first h b1 b2 [b3]).rejection_eq.trans (rejection_first b0 h)

/-- Settles O3. -/
theorem undefinedOpcodesRejected : Obligations.UndefinedOpcodesRejected := by
  unfold Obligations.UndefinedOpcodesRejected
  intro b0 b1 b2 b3
  have hdecode := rejection_decode b0 b1 b2 b3
  refine ⟨fun hb => ?first, fun ⟨hb, hb1⟩ => ?prefixed, fun hb hb1 => ?accepted⟩
  case first =>
    have hne : b0 ≠ 0x9E#8 := fun h => absurd (h ▸ hb) (by decide)
    rw [if_neg hne, if_pos hb] at hdecode
    exact rejection_eq_some.mp hdecode
  case prefixed =>
    rw [if_pos hb, if_neg hb1] at hdecode
    exact rejection_eq_some.mp hdecode
  case accepted =>
    refine rejection_eq_none (hdecode.trans ?_)
    by_cases h : b0 = 0x9E#8
    · rw [if_pos h, if_pos (hb1 h)]
    · rw [if_neg h, if_neg hb]

/-! ### Length and duration -/

/-- Length and duration of what decodes are fixed by its opcode (R80, R304). -/
theorem FixedByOpcode.alike {decoder : List Byte → Decoded} (h : FixedByOpcode decoder) {bs cs rest rest' : List Byte}
    {i j : Instr} (hi : decoder (bs ++ [0#8, 0#8]) = .ok (i, rest)) (hj : decoder (cs ++ [0#8, 0#8]) = .ok (j, rest')) :
    Alike i j := by
  have hbs : Agree (.ok (i, rest)) (decoder [0#8, 0#8]) := hi ▸ h.agree (by simp)
  have hcs : Agree (.ok (j, rest')) (decoder [0#8, 0#8]) := hj ▸ h.agree (by simp)
  generalize decoder [0#8, 0#8] = d at hbs hcs
  cases hbs with
  | ok _ _ hik =>
    cases hcs with
    | ok _ _ hjk => exact hik.trans hjk.symm

/-- An instruction begins with a byte other than `$9E`, or with `$9E` and a second byte. -/
theorem encode_cases {i : Instr} (hw : WellFormed i) :
    (∃ b bs, b ≠ 0x9E#8 ∧ encode i = b :: bs) ∨ ∃ b bs, encode i = 0x9E#8 :: b :: bs := by
  have hdecode := decodeOfEncode i [] hw
  rw [List.append_nil] at hdecode
  cases hi : encode i with
  | nil => rw [hi] at hdecode; cases hdecode
  | cons b bs =>
    by_cases hb : b = 0x9E#8
    · subst hb
      cases bs with
      | nil => rw [hi] at hdecode; cases hdecode
      | cons c bs => exact .inr ⟨c, bs, rfl⟩
    · exact .inl ⟨b, bs, hb, rfl⟩

theorem eq_cons_of_getElem?_zero {b : Byte} {bs : List Byte} (h : bs[0]? = some b) : ∃ cs, bs = b :: cs :=
  List.head?_eq_some_iff.mp (List.head?_eq_getElem?.trans h)

/-- Instructions of one opcode have one length and one duration (R80, R304). -/
theorem alike_of_opcode {i j : Instr} (hi : WellFormed i) (hj : WellFormed j) (hfirst : (encode i)[0]? = (encode j)[0]?)
    (hsecond : (encode i)[0]? = some 0x9E#8 → (encode i)[1]? = (encode j)[1]?) : Alike i j := by
  have hdi := decodeOfEncode i [0#8, 0#8] hi
  have hdj := decodeOfEncode j [0#8, 0#8] hj
  obtain ⟨b, bs, hb, hei⟩ | ⟨b, bs, hei⟩ := encode_cases hi
  · rw [hei] at hfirst hdi
    obtain ⟨cs, hej⟩ := eq_cons_of_getElem?_zero hfirst.symm
    rw [hej] at hdj
    exact (FixedByOpcode.first hb).alike hdi hdj
  · rw [hei] at hfirst hsecond hdi
    obtain ⟨cs, hej⟩ := eq_cons_of_getElem?_zero hfirst.symm
    rw [hej] at hsecond hdj
    obtain ⟨cs, rfl⟩ := eq_cons_of_getElem?_zero (hsecond rfl).symm
    exact (FixedByOpcode.prefixed b).alike hdi hdj

/-! ### The table of cycle codes -/

/-- The operands of a row of the table. -/
structure Operands where
  dd : Byte := 0#8
  ff : Byte := 0#8
  ii : Byte := 0#8
  rr : Byte := 0#8
  w : Word := 0#16
  n : Fin 8 := 0

/-- The table at these operands. -/
def Operands.table (o : Operands) : List (List BusCycle × List Instr) := cycleTable o.dd o.ff o.ii o.rr o.w o.n

/-- The instruction stands in a row of the table, at some operands. -/
def Listed (i : Instr) : Prop :=
  ∃ (dd ff ii rr : Byte) (w : Word) (n : Fin 8), ∃ row ∈ cycleTable dd ff ii rr w n, i ∈ row.2

theorem listed_in (o : Operands) (code : List BusCycle) {i : Instr} {row : List BusCycle × List Instr}
    (hrow : o.table.find? (fun row => row.1 == code) = some row) (hi : i ∈ row.2) : Listed i :=
  ⟨o.dd, o.ff, o.ii, o.rr, o.w, o.n, row, List.mem_of_find?_eq_some hrow, hi⟩

/-- The readers of the register/memory group, in the order of the table (R120). -/
def readers : List (Source → Instr) :=
  [.sub, .cmp, .sbc, .cpx, .and, .bit, .lda, .eor, .adc, .ora, .add, .ldx]

/-- The nine read-modify-write operations, in the order of the table (R140). -/
def modifiers : List (MemMode → Instr) := [.neg, .com, .lsr, .ror, .asr, .lsl, .rol, .dec, .inc]

/-- A block of instructions whose forms in one mode stand in one row. -/
theorem listed_block {α : Type} {block : List (α → Instr)} {k : α → Instr} (hk : k ∈ block) {a : α} (o : Operands)
    (code : List BusCycle) {row : List BusCycle × List Instr}
    (hrow : o.table.find? (fun row => row.1 == code) = some row) (hforms : block.map (fun k => k a) ⊆ row.2) :
    Listed (k a) :=
  listed_in o code hrow (hforms (List.mem_map_of_mem hk))

theorem reader_listed {k : Source → Instr} (hk : k ∈ readers) (src : Source) : Listed (k src) := by
  cases src with
  | imm ii => exact listed_block hk { ii } [.p, .p] rfl (by simp [readers])
  | mem m =>
    cases m with
    | dir dd => exact listed_block hk { dd } [.p, .r, .p] rfl (by simp [readers])
    | ext w => exact listed_block hk { w } [.p, .p, .r, .p] rfl (by simp [readers])
    | ix2 w => exact listed_block hk { w } [.p, .p, .p, .r] rfl (by simp [readers])
    | ix1 ff => exact listed_block hk { ff } [.p, .p, .r] rfl (by simp [readers])
    | ix => exact listed_block hk {} [.p, .r] rfl (by simp [readers])
    | sp2 w => exact listed_block hk { w } [.p, .p, .p, .p, .r] rfl (by simp [readers])
    | sp1 ff => exact listed_block hk { ff } [.p, .p, .p, .r] rfl (by simp [readers])

theorem modifier_listed {k : MemMode → Instr} (hk : k ∈ modifiers) {m : MemMode} (hm : m.isRmw = true) :
    Listed (k m) := by
  cases m with
  | dir dd => exact listed_block hk { dd } [.p, .r, .w, .p] rfl (by simp [modifiers])
  | ix1 ff => exact listed_block hk { ff } [.p, .p, .r, .w] rfl (by simp [modifiers])
  | ix => exact listed_block hk {} [.p, .r, .w] rfl (by simp [modifiers])
  | sp1 ff => exact listed_block hk { ff } [.p, .p, .p, .r, .w] rfl (by simp [modifiers])
  | ext _ | ix2 _ | sp2 _ => exact nomatch hm

theorem tst_listed {m : MemMode} (hm : m.isRmw = true) : Listed (.tst m) := by
  cases m with
  | dir dd => exact listed_in { dd } [.p, .r, .p] rfl (by simp)
  | ix1 ff => exact listed_in { ff } [.p, .p, .r] rfl (by simp)
  | ix => exact listed_in {} [.p, .r] rfl (by simp)
  | sp1 ff => exact listed_in { ff } [.p, .p, .p, .r] rfl (by simp)
  | ext _ | ix2 _ | sp2 _ => exact nomatch hm

theorem clr_listed {m : MemMode} (hm : m.isRmw = true) : Listed (.clr m) := by
  cases m with
  | dir dd => exact listed_in { dd } [.p, .w, .p] rfl (by simp)
  | ix1 ff => exact listed_in { ff } [.p, .p, .w] rfl (by simp)
  | ix => exact listed_in {} [.p, .w] rfl (by simp)
  | sp1 ff => exact listed_in { ff } [.p, .p, .p, .w] rfl (by simp)
  | ext _ | ix2 _ | sp2 _ => exact nomatch hm

/-- STA and STX (R120). -/
theorem store_listed {k : MemMode → Instr} (hk : k ∈ [Instr.sta, .stx]) (m : MemMode) : Listed (k m) := by
  cases m with
  | dir dd => exact listed_block hk { dd } [.p, .w, .p] rfl (by simp)
  | ext w => exact listed_block hk { w } [.p, .p, .w, .p] rfl (by simp)
  | ix2 w => exact listed_block hk { w } [.p, .p, .p, .w] rfl (by simp)
  | ix1 ff => exact listed_block hk { ff } [.p, .p, .w] rfl (by simp)
  | ix => exact listed_block hk {} [.p, .w] rfl (by simp)
  | sp2 w => exact listed_block hk { w } [.p, .p, .p, .p, .w] rfl (by simp)
  | sp1 ff => exact listed_block hk { ff } [.p, .p, .p, .w] rfl (by simp)

theorem jmp_listed {m : MemMode} (hm : m.isJump = true) : Listed (.jmp m) := by
  cases m with
  | dir dd => exact listed_in { dd } [.p, .p] rfl (by simp)
  | ext w => exact listed_in { w } [.p, .p, .p] rfl (by simp)
  | ix2 w => exact listed_in { w } [.p, .p, .d, .p] rfl (by simp)
  | ix1 ff => exact listed_in { ff } [.p, .d, .p] rfl (by simp)
  | ix => exact listed_in {} [.p, .p] rfl (by simp)
  | sp2 _ | sp1 _ => exact nomatch hm

theorem jsr_listed {m : MemMode} (hm : m.isJump = true) : Listed (.jsr m) := by
  cases m with
  | dir dd => exact listed_in { dd } [.p, .s, .s, .p] rfl (by simp)
  | ext w => exact listed_in { w } [.p, .p, .s, .s, .p] rfl (by simp)
  | ix2 w => exact listed_in { w } [.p, .p, .s, .s, .d, .p] rfl (by simp)
  | ix1 ff => exact listed_in { ff } [.p, .s, .s, .d, .p] rfl (by simp)
  | ix => exact listed_in {} [.p, .s, .s, .p] rfl (by simp)
  | sp2 _ | sp1 _ => exact nomatch hm

theorem cbeq_listed (m : CbeqMode) (rr : Byte) : Listed (.cbeq m rr) := by
  cases m with
  | dir dd => exact listed_in { dd, rr } [.p, .p, .r, .d, .p] rfl (by simp)
  | ix1Plus ff => exact listed_in { ff, rr } [.p, .p, .r, .d, .p] rfl (by simp)
  | ixPlus => exact listed_in { rr } [.p, .r, .d, .p] rfl (by simp)
  | sp1 ff => exact listed_in { ff, rr } [.p, .p, .p, .r, .d, .p] rfl (by simp)

theorem dbnz_listed {m : MemMode} (hm : m.isRmw = true) (rr : Byte) : Listed (.dbnz m rr) := by
  cases m with
  | dir dd => exact listed_in { dd, rr } [.p, .p, .r, .w, .p] rfl (by simp)
  | ix1 ff => exact listed_in { ff, rr } [.p, .p, .r, .w, .p] rfl (by simp)
  | ix => exact listed_in { rr } [.p, .r, .w, .p] rfl (by simp)
  | sp1 ff => exact listed_in { ff, rr } [.p, .p, .p, .r, .w, .p] rfl (by simp)
  | ext _ | ix2 _ | sp2 _ => exact nomatch hm

theorem mov_listed (f : MoveForm) : Listed (.mov f) := by
  cases f with
  | dirDir dd ff => exact listed_in { dd, ff } [.p, .r, .p, .w, .p] rfl (by simp)
  | dirIxPlus dd => exact listed_in { dd } [.p, .r, .w, .p] rfl (by simp)
  | immDir ii dd => exact listed_in { ii, dd } [.p, .p, .w, .p] rfl (by simp)
  | ixPlusDir dd => exact listed_in { dd } [.p, .r, .w, .p] rfl (by simp)

/-- Every form of Table 1 has a row. -/
theorem listed_of_wellFormed {i : Instr} (hw : WellFormed i) : Listed i := by
  cases i with
  | brset n dd rr | brclr n dd rr => exact listed_in { n, dd, rr } [.p, .r, .p, .d, .p] rfl (by simp)
  | bset n dd | bclr n dd => exact listed_in { n, dd } [.p, .r, .w, .p] rfl (by simp)
  | bra rr | brn rr | bhi rr | bls rr | bcc rr | bcs rr | bne rr | beq rr | bhcc rr | bhcs rr | bpl rr | bmi rr
  | bmc rr | bms rr | bil rr | bih rr | bge rr | blt rr | bgt rr | ble rr | dbnza rr | dbnzx rr =>
    exact listed_in { rr } [.p, .d, .p] rfl (by simp)
  | neg m | com m | lsr m | ror m | asr m | lsl m | rol m | dec m | inc m =>
    exact modifier_listed (by simp [modifiers]) hw
  | sub src | cmp src | sbc src | cpx src | and src | bit src | lda src | eor src | adc src | ora src | add src
  | ldx src => exact reader_listed (by simp [readers]) src
  | tst m => exact tst_listed hw
  | clr m => exact clr_listed hw
  | sta m | stx m => exact store_listed (by simp) m
  | jmp m => exact jmp_listed hw
  | jsr m => exact jsr_listed hw
  | cbeq m rr => exact cbeq_listed m rr
  | dbnz m rr => exact dbnz_listed hw rr
  | cbeqa ii rr | cbeqx ii rr => exact listed_in { ii, rr } [.p, .p, .d, .p] rfl (by simp)
  | mov f => exact mov_listed f
  | ldhx src | cphx src =>
    cases src with
    | imm w => exact listed_in { w } [.p, .p, .p] rfl (by simp)
    | dir dd => exact listed_in { dd } [.p, .r, .r, .p] rfl (by simp)
  | sthx dd => exact listed_in { dd } [.p, .w, .w, .p] rfl (by simp)
  | ais ii | aix ii => exact listed_in { ii } [.p, .p] rfl (by simp)
  | bsr rr => exact listed_in { rr } [.p, .s, .s, .p] rfl (by simp)
  | daa | txs | tsx => exact listed_in {} [.p, .p] rfl (by simp)
  | mul => exact listed_in {} [.p, .p, .d, .d, .d] rfl (by simp)
  | div => exact listed_in {} [.p, .d, .p, .d, .d, .d, .d] rfl (by simp)
  | nsa => exact listed_in {} [.p, .p, .d] rfl (by simp)
  | rti => exact listed_in {} [.p, .u, .u, .u, .u, .u, .p] rfl (by simp)
  | rts => exact listed_in {} [.p, .u, .u, .p] rfl (by simp)
  | swi => exact listed_in {} [.p, .s, .s, .s, .s, .s, .v, .v, .p] rfl (by simp)
  | tap | cli | sei => exact listed_in {} [.p, .d] rfl (by simp)
  | pula | pulx | pulh => exact listed_in {} [.p, .u] rfl (by simp)
  | psha | pshx | pshh => exact listed_in {} [.p, .s] rfl (by simp)
  | nega | coma | lsra | rora | asra | lsla | rola | deca | inca | tsta | clra | negx | comx | lsrx | rorx | asrx
  | lslx | rolx | decx | incx | tstx | clrx | tpa | clrh | stop | wait | tax | clc | sec | rsp | nop | txa =>
    exact listed_in {} [.p] rfl (by simp)

/-- Every row of the table as a test that can be evaluated. -/
theorem cycleTable_codes (dd ff ii rr : Byte) (w : Word) (n : Fin 8) :
    ((cycleTable dd ff ii rr w n).all fun row => row.2.all fun i => cycleCode i == row.1) = true := rfl

theorem cycleCode_of_mem_cycleTable {dd ff ii rr : Byte} {w : Word} {n : Fin 8} {row : List BusCycle × List Instr}
    (hrow : row ∈ cycleTable dd ff ii rr w n) {i : Instr} (hi : i ∈ row.2) : cycleCode i = row.1 :=
  beq_iff_eq.mp (List.all_eq_true.mp (List.all_eq_true.mp (cycleTable_codes dd ff ii rr w n) row hrow) i hi)

/-- Settles O6: the table row by row, then the forms block by block, then by `alike_of_opcode`. -/
theorem lengthAndCyclesByOpcode : Obligations.LengthAndCyclesByOpcode := by
  unfold Obligations.LengthAndCyclesByOpcode
  exact ⟨fun _ _ _ _ _ _ _ hrow _ hi => cycleCode_of_mem_cycleTable hrow hi, fun _ => listed_of_wellFormed,
    fun _ _ => alike_of_opcode, rfl, rfl, rfl, rfl, rfl, rfl⟩

end Sys2Proof

/-! Where a step stops (R103, R276, R277), and the step at a placed instruction (R100): what the fetched bytes decode
to, and how each sequence of bus cycles ends. -/

namespace Sys2Proof.Machine

open Sys2Proof.Safety

/-! ### Every instruction answers a next state, but a refused STOP -/

/-- R276; 92 D9. -/
theorem exec_cases (i : Instr) (s : State) : (∃ t, exec i s = .next t) ∨
    (i = .stop ∧ s.params.stopBehaviour = .refuse ∧ exec i s = .refused .stopNotPermitted) := by
  cases i with
  | stop =>
    cases h : s.params.stopBehaviour with
    | asWait => exact .inl ⟨(s.advance 1).halt .stopped, by rw [exec, execStop, h]⟩
    | refuse => exact .inr ⟨rfl, rfl, by rw [exec, execStop, h]⟩
  | mov f =>
    cases f with
    | dirDir _ _ | dirIxPlus _ | immDir _ _ | ixPlusDir _ => exact .inl ⟨_, rfl⟩
  | daa =>
    rw [exec, execDaa]
    split
    · exact .inl ⟨_, rfl⟩
    · exact .inl ⟨_, rfl⟩
  | div =>
    simp only [exec, execDiv]
    split
    · exact .inl ⟨_, rfl⟩
    · exact .inl ⟨_, rfl⟩
  | _ => exact .inl ⟨_, rfl⟩

/-! ### What the fetched bytes decode to -/

theorem rejection_fetchBytes (s : State) : rejection (decode s.fetchBytes) =
    if s.ibuf = 0x9E#8 then
      if s.read (s.pc + 1#16) ∈ pageTwo then none else some (.illegalPrefixed (s.read (s.pc + 1#16)))
    else if s.ibuf ∈ undefinedFirst then some (.illegalOpcode s.ibuf) else none :=
  rejection_decode _ _ _ _

/-- The CPU stands at an opcode with no row in Table 1 (R103). -/
def AtUndefined (s : State) : Prop :=
  s.ibuf ∈ undefinedFirst ∨ (s.ibuf = 0x9E#8 ∧ s.read (s.pc + 1#16) ∉ pageTwo)

theorem ne_prefix_of_undefined {b : Byte} (h : b ∈ undefinedFirst) : b ≠ 0x9E#8 := by
  rintro rfl
  exact absurd h (by decide)

/-- There the decoder rejects the offending bytes (R277). -/
theorem decode_of_atUndefined {s : State} (h : AtUndefined s) :
    ∃ e, decode s.fetchBytes = .error e ∧ e.bytes = offendingBytes s := by
  have hrejection := rejection_fetchBytes s
  obtain hfirst | ⟨hprefix, hsecond⟩ := h
  · have hne := ne_prefix_of_undefined hfirst
    rw [if_neg hne, if_pos hfirst] at hrejection
    exact ⟨_, rejection_eq_some.mp hrejection, by rw [offendingBytes, if_neg hne]; rfl⟩
  · rw [if_pos hprefix, if_neg hsecond] at hrejection
    exact ⟨_, rejection_eq_some.mp hrejection, by rw [offendingBytes, if_pos hprefix, hprefix]; rfl⟩

/-- Only there does it reject. -/
theorem atUndefined_of_decode {s : State} {e : DecodeError} (h : decode s.fetchBytes = .error e) :
    AtUndefined s ∧ e.bytes = offendingBytes s := by
  have hat : AtUndefined s := by
    have hrejection := (rejection_fetchBytes s).symm.trans (rejection_eq_some.mpr h)
    by_cases hprefix : s.ibuf = 0x9E#8
    · refine .inr ⟨hprefix, fun hsecond => ?_⟩
      rw [if_pos hprefix, if_pos hsecond] at hrejection
      exact nomatch hrejection
    · by_contra hfirst
      rw [if_neg hprefix, if_neg fun h => hfirst (.inl h)] at hrejection
      exact nomatch hrejection
  obtain ⟨e', he', hbytes⟩ := decode_of_atUndefined hat
  obtain rfl : e' = e := Except.error.inj (he'.symm.trans h)
  exact ⟨hat, hbytes⟩

theorem ibuf_of_decode {s : State} {i : Instr} {b : Byte} {bs rest : List Byte}
    (h : decode s.fetchBytes = .ok (i, rest)) (hi : encode i = b :: bs) : s.ibuf = b := by
  obtain ⟨-, hbytes⟩ := decode_eq_ok h
  rw [hi] at hbytes
  exact (List.cons.inj hbytes).1

/-! ### How a sequence of bus cycles ends -/

/-- A next state, or the fault of an access at an address that `MemMap` marks (92 D12). -/
def NextOrMarked (s : State) (o : Host.Outcome State Fault Refusal) : Prop :=
  (∃ t, o = .next t) ∨ ∃ a, regionKindAt s.params.memMap a = some .fault ∧ o = .fault (.markedAddress s.pc a)

theorem State.marked_of_firstMarked {s : State} {bus : List BusAccess} {a : Word} (h : s.firstMarked bus = some a) :
    regionKindAt s.params.memMap a = some .fault := by
  obtain ⟨c, hc, rfl⟩ := Option.map_eq_some_iff.mp h
  simpa using List.find?_some hc

section
variable (s t : State)

theorem State.finish_nextOrMarked : NextOrMarked s (s.finish t) := by
  cases h : s.firstMarked t.bus with
  | none => exact .inl ⟨t, s.finish_next t h⟩
  | some a => exact .inr ⟨a, State.marked_of_firstMarked h, s.finish_marked t a h⟩

theorem State.resetSequence_nextOrMarked : NextOrMarked s s.resetSequence := s.finish_nextOrMarked _

theorem State.sequence_nextOrMarked : NextOrMarked s (s.sequence t) := by
  unfold State.sequence
  split
  · exact s.finish_nextOrMarked t
  · split
    · split
      next a ha => exact .inr ⟨a, State.marked_of_firstMarked ha, rfl⟩
      next => simpa [NextOrMarked] using (s.partWay _).resetSequence_nextOrMarked
    · exact s.finish_nextOrMarked t

end

/-! ### Undefined opcodes -/

section
variable (s : State) (bytes : List Byte)

@[simp] theorem State.afterUndefined_pc : (s.afterUndefined bytes).pc = s.pc := by
  unfold State.afterUndefined; split <;> simp
@[simp] theorem State.afterUndefined_params : (s.afterUndefined bytes).params = s.params := by
  unfold State.afterUndefined; split <;> simp

variable {s bytes}

/-- The offending bytes are fetched, the second only where the first is `$9E` (R98). -/
theorem State.afterUndefined_offending :
    s.afterUndefined (offendingBytes s) = if s.ibuf = 0x9E#8 then s.fetchByte 1 else s := by
  unfold State.afterUndefined offendingBytes
  by_cases h : s.ibuf = 0x9E#8
  · rw [if_pos h, if_pos h]; exact if_pos rfl
  · rw [if_neg h, if_neg h]; exact if_neg (by simp)

theorem State.illegalOpcode_marked {a : Word} (h : s.firstMarked (s.afterUndefined bytes).bus = some a) :
    s.illegalOpcode bytes = .fault (.markedAddress s.pc a) := by simp only [State.illegalOpcode, h]

section
variable (h : s.firstMarked (s.afterUndefined bytes).bus = none)
include h

theorem State.illegalOpcode_fault (hp : s.params.illegalOpcode = .fault) :
    s.illegalOpcode bytes = .fault (.illegalOpcode s.pc bytes) := by simp only [State.illegalOpcode, h, hp]

theorem State.illegalOpcode_reset (hp : s.params.illegalOpcode = .reset) :
    s.illegalOpcode bytes = (s.afterUndefined bytes).resetSequence := by simp only [State.illegalOpcode, h, hp]

end

theorem State.illegalOpcode_stops : NextOrMarked s (s.illegalOpcode bytes) ∨
    (s.params.illegalOpcode = .fault ∧ s.illegalOpcode bytes = .fault (.illegalOpcode s.pc bytes)) := by
  cases h : s.firstMarked (s.afterUndefined bytes).bus with
  | some a => exact .inl (.inr ⟨a, State.marked_of_firstMarked h, State.illegalOpcode_marked h⟩)
  | none =>
    cases hp : s.params.illegalOpcode with
    | fault => exact .inr ⟨rfl, State.illegalOpcode_fault h hp⟩
    | reset =>
      rw [State.illegalOpcode_reset h hp]
      exact .inl (by simpa [NextOrMarked] using (s.afterUndefined bytes).resetSequence_nextOrMarked)

end

/-! ### Steps -/

theorem runInstruction_undefined {s : State} {e : DecodeError} (h : decode s.fetchBytes = .error e) :
    s.runInstruction = s.illegalOpcode e.bytes := by
  unfold State.runInstruction
  rw [h]

/-- How a boundary that goes on to the next instruction ends. -/
theorem runInstruction_stops (s : State) : NextOrMarked s s.runInstruction ∨
    (s.ibuf = 0x8E#8 ∧ s.params.stopBehaviour = .refuse ∧ s.runInstruction = .refused .stopNotPermitted) ∨
    (s.params.illegalOpcode = .fault ∧ AtUndefined s ∧
      s.runInstruction = .fault (.illegalOpcode s.pc (offendingBytes s))) := by
  cases hdecode : decode s.fetchBytes with
  | error e =>
    obtain ⟨hat, hbytes⟩ := atUndefined_of_decode hdecode
    rw [runInstruction_undefined hdecode, hbytes]
    obtain hnext | ⟨hp, hfault⟩ := State.illegalOpcode_stops
    · exact .inl hnext
    · exact .inr (.inr ⟨hp, hat, hfault⟩)
  | ok answer =>
    obtain ⟨i, rest⟩ := answer
    have hrun := runInstruction_eq hdecode
    obtain ⟨t, ht⟩ | ⟨rfl, hp, hstop⟩ := exec_cases i (s.setInhibit false)
    · rw [ht] at hrun
      exact .inl (hrun ▸ s.sequence_nextOrMarked t)
    · rw [hstop] at hrun
      exact .inr (.inl ⟨ibuf_of_decode hdecode rfl, hp, hrun⟩)

theorem nextOrMarked_sampleInputs {s : State} {o : Host.Outcome State Fault Refusal}
    (h : NextOrMarked s.sampleInputs o) : NextOrMarked s o := by simpa [NextOrMarked] using h

/-- How a step ends: as a sequence of bus cycles does, or with the stops of an instruction (R103, R276). -/
theorem step_stops (s : State) : NextOrMarked s (step s) ∨
    (RunsNext s.sampleInputs ∧ s.ibuf = 0x8E#8 ∧ s.params.stopBehaviour = .refuse ∧
      step s = .refused .stopNotPermitted) ∨
    (RunsNext s.sampleInputs ∧ s.params.illegalOpcode = .fault ∧ AtUndefined s ∧
      step s = .fault (.illegalOpcode s.pc (offendingBytes s))) := by
  by_cases hreset : s.sampleInputs.inputs.resetRequest = some 0
  · rw [step_reset s hreset]
    exact .inl (nextOrMarked_sampleInputs s.sampleInputs.resetSequence_nextOrMarked)
  cases hrec : s.sampleInputs.recognised with
  | some src =>
    rw [step_interrupt s src hreset hrec]
    exact .inl (nextOrMarked_sampleInputs (s.sampleInputs.sequence_nextOrMarked _))
  | none =>
    by_cases hrun : s.run = .running
    · rw [step_instruction s hreset hrec hrun]
      have hnext : RunsNext s.sampleInputs := ⟨hreset, hrec, by simpa using hrun⟩
      obtain h | ⟨hibuf, hp, h⟩ | ⟨hp, hat, h⟩ := runInstruction_stops s.sampleInputs
      · exact .inl (nextOrMarked_sampleInputs h)
      · exact .inr (.inl ⟨hnext, by simpa using hibuf, by simpa using hp, h⟩)
      · exact .inr (.inr ⟨hnext, by simpa using hp, by simpa [AtUndefined] using hat,
          by simpa [offendingBytes] using h⟩)
    · exact .inl (.inl ⟨_, step_halted s hreset hrec hrun⟩)

/-- The step at an undefined opcode whose bytes touch no marked address (R277). -/
theorem step_undefined {s : State} (hnext : RunsNext s.sampleInputs) (hat : AtUndefined s)
    (hmarked : s.ibuf = 0x9E#8 → regionKindAt s.params.memMap (s.pc + 1#16) ≠ some .fault) :
    step s = match s.params.illegalOpcode with
      | .fault => .fault (.illegalOpcode s.pc (offendingBytes s))
      | .reset =>
        (if s.ibuf = 0x9E#8 then s.sampleInputs.fetchByte 1 else s.sampleInputs).resetSequence := by
  obtain ⟨hreset, hrec, hrun⟩ := hnext
  obtain ⟨e, hdecode, hbytes⟩ := decode_of_atUndefined (s := s.sampleInputs) (by simpa [AtUndefined] using hat)
  have hfetched :
      s.sampleInputs.firstMarked (s.sampleInputs.afterUndefined (offendingBytes s.sampleInputs)).bus = none := by
    rw [State.afterUndefined_offending]
    split
    case isTrue h => simpa [State.firstMarked, State.fetchByte, State.load] using hmarked (by simpa using h)
    case isFalse h => simp [State.firstMarked]
  rw [step_instruction s hreset hrec (by simpa using hrun), runInstruction_undefined hdecode, hbytes]
  cases hp : s.params.illegalOpcode with
  | fault =>
    rw [State.illegalOpcode_fault hfetched (by simpa using hp)]
    simp [offendingBytes]
  | reset =>
    rw [State.illegalOpcode_reset hfetched (by simpa using hp), State.afterUndefined_offending]
    simp

/-- Settles O9. -/
theorem whereAStepStops : Obligations.WhereAStepStops := by
  unfold Obligations.WhereAStepStops
  refine ⟨fun s => ?stops, fun s hnext hat hmarked => step_undefined hnext hat hmarked⟩
  obtain (hnext | hmarked) | hstop | ⟨hnext, hp, hat, hfault⟩ := step_stops s
  · exact .inl hnext
  · exact .inr (.inl hmarked)
  · exact .inr (.inr (.inl hstop))
  · refine .inr (.inr (.inr ⟨hnext, hp, ?_⟩))
    obtain hfirst | ⟨hprefix, hsecond⟩ := hat
    · exact .inl ⟨hfirst, by rw [hfault, offendingBytes, if_neg (ne_prefix_of_undefined hfirst)]⟩
    · exact .inr ⟨hprefix, hsecond, by rw [hfault, offendingBytes, if_pos hprefix, hprefix]⟩

/-! ### A placed instruction -/

theorem add_ofNat_succ (a : Word) (k : Nat) : a + BitVec.ofNat 16 (k + 1) = a + 1#16 + BitVec.ofNat 16 k := by
  rw [Nat.add_comm k 1, BitVec.ofNat_add, ← BitVec.add_assoc]

theorem Memory.read_storeBytes_other {c : Word} : ∀ (bs : List Byte) (m : Memory) (a : Word),
    (∀ k < bs.length, c ≠ a + BitVec.ofNat 16 k) → (storeBytes m a bs).read c.toNat = m.read c.toNat
  | [], _, _, _ => rfl
  | b :: bs, m, a, h => by
    have hne : c ≠ a := by simpa using h 0 (Nat.succ_pos _)
    have hrest : ∀ k < bs.length, c ≠ a + 1#16 + BitVec.ofNat 16 k := fun k hk =>
      add_ofNat_succ a k ▸ h (k + 1) (Nat.succ_lt_succ hk)
    rw [storeBytes, Memory.read_storeBytes_other bs _ _ hrest]
    exact Memory.read_write_other (fun he => hne (BitVec.eq_of_toNat_eq he)) b m

/-- Bytes at consecutive addresses are read back there (R54). -/
theorem Memory.read_storeBytes : ∀ (bs : List Byte) (m : Memory) (a : Word) (k : Nat) (hk : k < bs.length),
    m.wf = true → bs.length ≤ 2 ^ 16 → (storeBytes m a bs).read (a + BitVec.ofNat 16 k).toNat = bs[k]
  | b :: bs, m, a, 0, _, hm, hlen => by
    have hother : ∀ k < bs.length, a ≠ a + 1#16 + BitVec.ofNat 16 k := fun k hk => by
      rw [List.length_cons] at hlen
      bv_omega
    rw [storeBytes, BitVec.add_zero, Memory.read_storeBytes_other bs _ _ hother]
    exact Memory.read_write_same hm _ b
  | b :: bs, m, a, k + 1, hk, hm, hlen => by
    rw [storeBytes, add_ofNat_succ a k]
    exact Memory.read_storeBytes bs _ _ k (Nat.lt_of_succ_lt_succ hk) (Memory.wf_write hm a.isLt b)
      (Nat.le_of_succ_le hlen)

theorem tableWordBytes_eq (nbits w : Nat) : ∃ b0 b1 b2 b3 : Byte, tableWordBytes nbits w = [b0, b1, b2, b3] := by
  unfold tableWordBytes
  split
  · exact ⟨_, _, _, _, rfl⟩
  · exact ⟨_, _, _, _, rfl⟩

theorem decode_of_decodeTableWord {nbits w : Nat} {i : Instr} (h : decodeTableWord nbits w = some i) :
    ∃ rest, decode (tableWordBytes nbits w) = .ok (i, rest) := by
  unfold decodeTableWord at h
  split at h
  next j rest hj => cases h; exact ⟨rest, hj⟩
  next => cases h

/-- Where all of memory is RAM the fetched bytes are those in memory (92 D13). -/
theorem fetchBytes_allRam {s : State} (h : s.params.memMap = []) : s.fetchBytes =
    [s.ibuf, s.mem.read (s.pc + 1#16).toNat, s.mem.read (s.pc + 2#16).toNat, s.mem.read (s.pc + 3#16).toNat] := by
  have hread {t : State} (hp : t.params = s.params) (hm : t.mem = s.mem) (a : Word) :
      t.read a = s.mem.read a.toNat := by
    rw [State.read_ram t (by simp [State.isRam, hp, h, regionKindAt]), hm]
  simp only [State.fetchBytes]
  rw [hread rfl rfl, hread (by split <;> simp) (by split <;> simp), hread (by simp) (by simp)]

section
variable (s : State) (nbits w : Nat)

@[simp] theorem State.withFetchWord_pc : (s.withFetchWord nbits w).pc = s.pc := rfl
@[simp] theorem State.withFetchWord_params : (s.withFetchWord nbits w).params = s.params := rfl
@[simp] theorem State.withFetchWord_schedule : (s.withFetchWord nbits w).schedule = s.schedule := rfl
@[simp] theorem State.withFetchWord_mem :
    (s.withFetchWord nbits w).mem = storeBytes s.mem s.pc (tableWordBytes nbits w) := rfl
@[simp] theorem State.withFetchWord_ibuf :
    (s.withFetchWord nbits w).ibuf = (tableWordBytes nbits w).headD 0x00#8 := rfl

/-- The bytes that the step looks at are those placed (R30, R100). -/
theorem fetchBytes_placed (hm : s.mem.wf = true) (h : s.params.memMap = []) :
    (s.withFetchWord nbits w).sampleInputs.fetchBytes = tableWordBytes nbits w := by
  obtain ⟨b0, b1, b2, b3, hbytes⟩ := tableWordBytes_eq nbits w
  have hstored (k : Nat) (hk : k < 4) := Memory.read_storeBytes [b0, b1, b2, b3] s.mem s.pc k hk hm (by simp)
  have h1 := hstored 1 (by decide)
  have h2 := hstored 2 (by decide)
  have h3 := hstored 3 (by decide)
  rw [fetchBytes_allRam (by simpa using h)]
  simpa [hbytes] using ⟨h1, h2, h3⟩

end

theorem State.sampleInputs_of_nil {s : State} (h : s.schedule = []) : s.sampleInputs = s.setBus [] := by
  rw [State.sampleInputs, h]

theorem State.firstMarked_allRam {s : State} (h : s.params.memMap = []) (bus : List BusAccess) :
    s.firstMarked bus = none := by
  simp [State.firstMarked, h, regionKindAt]

/-- Settles O8: the fetched bytes are the placed ones, and nothing stops the instruction that they spell. -/
theorem stepRunsThePlacedWord : Obligations.StepRunsThePlacedWord := by
  unfold Obligations.StepRunsThePlacedWord
  intro s nbits w i hm hram hschedule hnext hundisturbed hstop hword
  obtain ⟨rest, hdecode⟩ := decode_of_decodeTableWord hword
  have hsample : (s.withFetchWord nbits w).sampleInputs = (s.withFetchWord nbits w).setBus [] :=
    State.sampleInputs_of_nil hschedule
  have hruns : RunsNext (s.withFetchWord nbits w).sampleInputs := hsample ▸ hnext
  have hfree : Undisturbed (s.withFetchWord nbits w).sampleInputs (cycleCount i) := hsample ▸ hundisturbed
  obtain ⟨t, ht⟩ | ⟨-, hrefuse, -⟩ := exec_cases i ((s.withFetchWord nbits w).sampleInputs.setInhibit false)
  · obtain ⟨hexec, -⟩ := stepRunsTheDecodedInstruction _ i rest hruns
      ((fetchBytes_placed s nbits w hm hram).symm ▸ hdecode)
    obtain ⟨-, hstep⟩ := hexec t ht
    exact ⟨t, ht, (hstep hfree).1 (State.firstMarked_allRam hram _)⟩
  · simp [hstop] at hrefuse

end Sys2Proof.Machine

/-! Register/memory instructions: what a reader and a store leave of the state they start in, and the flags of each
operation as the statements write them out (R36 to R42, R120 to R134). -/

namespace Sys2Proof.Machine

open Sys2Proof.Safety

/-! ### Readers -/

/-- What a reader of `src` leaves: these values in `A` and `X`, these flags, and nothing else (R120). -/
def ReaderLeaves (i : Instr) (src : Source) (s : State) (a x : Byte) (f : Ccr) : Prop :=
  ∃ t, exec i s = .next t ∧ Registers t a x s.h s.sp ∧ t.ccr = f ∧
    GoesTo s t (s.pc + BitVec.ofNat 16 (sourceLength src)) ∧ SameBytes s t ∧ SameSurroundings s t

section
variable {i : Instr} {src : Source} {s : State} {op : Byte → Ccr → Byte × Ccr}

theorem readerLeaves_of_accumulate (h : exec i s = .next (accumulate src op s)) :
    ReaderLeaves i src s (op (sourceValue src s) s.ccr).1 s.x (op (sourceValue src s) s.ccr).2 := by
  obtain ⟨ha, hccr, hx, hh, hsp, hpc, hmem⟩ := accumulate_spec src op s
  exact ⟨_, h, ⟨ha, hx, hh, hsp⟩, hccr, exec_goesTo h hpc, sameBytes_of_mem hmem, (Continues.accumulate s src op).2⟩

theorem readerLeaves_of_compareWith (h : exec i s = .next (compareWith src op s)) :
    ReaderLeaves i src s s.a s.x (op (sourceValue src s) s.ccr).2 := by
  obtain ⟨hccr, ha, hx, hh, hsp, hpc, hmem⟩ := compareWith_spec src op s
  exact ⟨_, h, ⟨ha, hx, hh, hsp⟩, hccr, exec_goesTo h hpc, sameBytes_of_mem hmem, (Continues.compareWith s src op).2⟩

/-- LDX is the one reader whose result goes to `X` (R129). -/
theorem ldx_readerLeaves (src : Source) (s : State) :
    ReaderLeaves (.ldx src) src s s.a (sourceValue src s) (logic8 (sourceValue src s) s.ccr) :=
  ⟨_, rfl, by simp [Registers, logicResult], by simp [logicResult], exec_goesTo (i := .ldx src) rfl (by simp),
    sameBytes_of_mem (by simp), (((Continues.refl s).readOperand src).putX _).2⟩

end

/-! ### The flags, written out -/

theorem logic8_eq (r : Byte) (f : Ccr) : logic8 r f = ⟨false, f.h, f.i, r.msb, decide (r = 0#8), f.c⟩ := rfl

section
variable (a m : Byte) (f : Ccr)

theorem add8_snd (cin : Bool) : (add8 a m cin f).2 =
    ⟨(add8 a m cin f).1.msb != a.msb && a.msb == m.msb, decide (15 < a.toNat % 16 + m.toNat % 16 + cin.toNat), f.i,
      (add8 a m cin f).1.msb, decide ((add8 a m cin f).1 = 0#8), decide (255 < a.toNat + m.toNat + cin.toNat)⟩ := by
  rw [Bool.and_comm]
  rfl

theorem sub8_snd (bin : Bool) : (sub8 a m bin f).2 =
    ⟨(sub8 a m bin f).1.msb != a.msb && a.msb != m.msb, f.h, f.i, (sub8 a m bin f).1.msb,
      decide ((sub8 a m bin f).1 = 0#8), decide (a.toNat < m.toNat + bin.toNat)⟩ := by
  rw [Bool.and_comm]
  rfl

theorem sub8_fst_eq_ofNat (bin : Bool) :
    (sub8 a m bin f).1 = BitVec.ofNat 8 (a.toNat + 512 - m.toNat - bin.toNat) :=
  BitVec.eq_of_toNat_eq (by rw [sub8_toNat, BitVec.toNat_ofNat])

/-- The result of a subtraction without borrow in. -/
theorem sub8_false_fst : (sub8 a m false f).1 = a - m := BitVec.sub_zero (a - m)

/-- The flags of a comparison: the difference is zero just when the operands are equal (R125, R126). -/
theorem sub8_false_snd : (sub8 a m false f).2 =
    ⟨(a - m).msb != a.msb && a.msb != m.msb, f.h, f.i, (a - m).msb, decide (a = m), decide (a.toNat < m.toNat)⟩ := by
  have hzero : a - m = 0#8 ↔ a = m := sub_eq_zero
  simp only [sub8_snd, sub8_false_fst, hzero, Bool.toNat_false, Nat.add_zero]

end

/-- Settles O26. -/
theorem addInstructions : Obligations.AddInstructions := by
  unfold Obligations.AddInstructions
  intro s src i cin hi m sum
  have hspec : ReaderLeaves i src s (add8 s.a m cin s.ccr).1 s.x (add8 s.a m cin s.ccr).2 := by
    obtain ⟨rfl, rfl⟩ | ⟨rfl, rfl⟩ := hi
    · exact readerLeaves_of_accumulate (op := fun m f => add8 s.a m false f) rfl
    · exact readerLeaves_of_accumulate (op := fun m f => add8 s.a m f.c f) rfl
  obtain ⟨t, ht, ⟨ha, hregs⟩, hccr, hnext⟩ := hspec
  exact ⟨t, ht, ⟨ha, hregs⟩, by rw [hccr, add8_snd, ha], hnext⟩

/-- Settles O27. -/
theorem subtractInstructions : Obligations.SubtractInstructions := by
  unfold Obligations.SubtractInstructions
  intro s src i bin hi m
  have hspec : ReaderLeaves i src s (sub8 s.a m bin s.ccr).1 s.x (sub8 s.a m bin s.ccr).2 := by
    obtain ⟨rfl, rfl⟩ | ⟨rfl, rfl⟩ := hi
    · exact readerLeaves_of_accumulate (op := fun m f => sub8 s.a m false f) rfl
    · exact readerLeaves_of_accumulate (op := fun m f => sub8 s.a m f.c f) rfl
  obtain ⟨t, ht, ⟨ha, hregs⟩, hccr, hnext⟩ := hspec
  exact ⟨t, ht, ⟨ha.trans (sub8_fst_eq_ofNat s.a m s.ccr bin), hregs⟩, by rw [hccr, sub8_snd, ha], hnext⟩

/-- Settles O28: `logicResult` is each operation's value with the flags of it. -/
theorem logicAndLoadInstructions : Obligations.LogicAndLoadInstructions := by
  unfold Obligations.LogicAndLoadInstructions
  intro s src i r a x m hi
  have hspec : ReaderLeaves i src s a x (logic8 r s.ccr) := by
    obtain ⟨rfl, rfl, rfl, rfl⟩ | ⟨rfl, rfl, rfl, rfl⟩ | ⟨rfl, rfl, rfl, rfl⟩ | ⟨rfl, rfl, rfl, rfl⟩ |
      ⟨rfl, rfl, rfl, rfl⟩ := hi
    · exact readerLeaves_of_accumulate (op := fun m f => logicResult (s.a &&& m) f) rfl
    · exact readerLeaves_of_accumulate (op := fun m f => logicResult (s.a ||| m) f) rfl
    · exact readerLeaves_of_accumulate (op := fun m f => logicResult (s.a ^^^ m) f) rfl
    · exact readerLeaves_of_accumulate (op := logicResult) rfl
    · exact ldx_readerLeaves src s
  rwa [logic8_eq] at hspec

/-- Settles O29. -/
theorem compareInstructions : Obligations.CompareInstructions := by
  unfold Obligations.CompareInstructions
  intro s src i f m compared hi
  have hcompared (r : Byte) : (sub8 r m false s.ccr).2 = compared r := sub8_false_snd r m s.ccr
  obtain ⟨rfl, rfl⟩ | ⟨rfl, rfl⟩ | ⟨rfl, rfl⟩ := hi
  · rw [← hcompared]
    exact readerLeaves_of_compareWith (op := fun m f => sub8 s.a m false f) rfl
  · rw [← hcompared]
    exact readerLeaves_of_compareWith (op := fun m f => sub8 s.x m false f) rfl
  · rw [← logic8_eq]
    exact readerLeaves_of_compareWith (op := fun m f => logicResult (s.a &&& m) f) rfl

/-! ### Stores -/

/-- What STA and STX do with their register (R120, R132, R133). -/
theorem exec_storeRegister {i : Instr} {s : State} {m : MemMode} {v : Byte} (hm : s.mem.wf = true)
    (h : exec i s = .next (storeRegister m v s)) :
    ∃ t, exec i s = .next t ∧ Registers t s.a s.x s.h s.sp ∧ t.ccr = logic8 v s.ccr ∧
      StoredAt s t (effectiveAddress m s) v ∧ GoesTo s t (s.pc + BitVec.ofNat 16 (modeLength m)) ∧
      SameSurroundings s t := by
  obtain ⟨ha, hx, hh, hsp, hccr, hpc, -, hread⟩ := storeRegister_spec m v s hm
  exact ⟨_, h, ⟨ha, hx, hh, hsp⟩, hccr, storedAt_of_memRead hread, exec_goesTo h hpc,
    (Continues.storeRegister s m v).2⟩

/-- Settles O30. -/
theorem storeInstructions : Obligations.StoreInstructions := by
  unfold Obligations.StoreInstructions
  intro s m i v hm hi
  rw [← logic8_eq]
  obtain ⟨rfl, rfl⟩ | ⟨rfl, rfl⟩ := hi <;> exact exec_storeRegister hm rfl

end Sys2Proof.Machine

/-! Read-modify-write instructions: what an inherent form and a memory form leave of the state they start in (R140 to
R152). -/

namespace Sys2Proof.Machine

open Sys2Proof.Safety

/-! ### Inherent forms -/

/-- What a one-byte instruction on registers leaves: these values in `A`, `X` and `H`, these flags, and nothing else
(R140, R143, R152). -/
def InherentLeaves (i : Instr) (s : State) (a x hi : Byte) (f : Ccr) : Prop :=
  ∃ t, exec i s = .next t ∧ Registers t a x hi s.sp ∧ t.ccr = f ∧ GoesTo s t (s.pc + 1#16) ∧ SameBytes s t ∧
    SameSurroundings s t

theorem inherentLeaves_of_next {i : Instr} {s : State} {a x hi : Byte} {f : Ccr}
    (h : exec i s = .next (State.advance { s with a := a, x := x, h := hi, ccr := f } 1)) :
    InherentLeaves i s a x hi f :=
  ⟨_, h, by simp [Registers], by simp, exec_goesTo h (by simp), sameBytes_of_mem (by simp),
    (((Continues.refl s).regs a x hi s.ibuf s.sp s.pc f).advance 1).2⟩

/-- The fetch of the next opcode depends on no register but `pc`: whether `A` is written before or after it is all
one. -/
theorem modifyA_eq_advance (op : Byte → Ccr → Byte × Ccr) (s : State) :
    modifyA op s = State.advance { s with a := (op s.a s.ccr).1, ccr := (op s.a s.ccr).2 } 1 := rfl

theorem modifyX_eq_advance (op : Byte → Ccr → Byte × Ccr) (s : State) :
    modifyX op s = State.advance { s with x := (op s.x s.ccr).1, ccr := (op s.x s.ccr).2 } 1 := rfl

/-! ### The nine operations -/

/-- The three forms of an operation of the table, in memory, on `A` and on `X`, share its meaning (R140). -/
theorem exec_modifyTable {row : (MemMode → Instr) × Instr × Instr × (Byte → Ccr → Byte × Ccr)}
    (hrow : row ∈ modifyTable) (s : State) : (∀ m, exec (row.1 m) s = .next (modifyMemory m row.2.2.2 s)) ∧
    exec row.2.1 s = .next (modifyA row.2.2.2 s) ∧ exec row.2.2.1 s = .next (modifyX row.2.2.2 s) := by
  simp only [modifyTable, List.mem_cons, List.not_mem_nil, or_false] at hrow
  obtain rfl | rfl | rfl | rfl | rfl | rfl | rfl | rfl | rfl := hrow <;> exact ⟨fun _ => rfl, rfl, rfl⟩

/-- What a read-modify-write of a memory byte leaves: the operation's result at the effective address, its flags, and
no other change (R140). -/
theorem exec_modifyMemory {i : Instr} {s : State} {m : MemMode} {op : Byte → Ccr → Byte × Ccr} (hm : s.mem.wf = true)
    (h : exec i s = .next (modifyMemory m op s)) :
    ∃ t, exec i s = .next t ∧ Registers t s.a s.x s.h s.sp ∧ t.ccr = (op (memoryValue m s) s.ccr).2 ∧
      StoredAt s t (effectiveAddress m s) (op (memoryValue m s) s.ccr).1 ∧
      GoesTo s t (s.pc + BitVec.ofNat 16 (modeLength m)) ∧ SameSurroundings s t := by
  obtain ⟨ha, hx, hh, hsp, hccr, hpc, -, hread⟩ := modifyMemory_spec m op s hm
  exact ⟨_, h, ⟨ha, hx, hh, hsp⟩, hccr, storedAt_of_memRead hread, exec_goesTo h hpc,
    (Continues.modifyMemory s m op).2⟩

/-- Settles O31. -/
theorem modifyMemoryInstructions : Obligations.ModifyMemoryInstructions := by
  unfold Obligations.ModifyMemoryInstructions
  intro s m hm row hrow
  obtain ⟨hmem, -, -⟩ := exec_modifyTable hrow s
  exact exec_modifyMemory hm (hmem m)

/-- Settles O32. -/
theorem modifyRegisterInstructions : Obligations.ModifyRegisterInstructions := by
  unfold Obligations.ModifyRegisterInstructions
  intro s row hrow
  obtain ⟨-, ha, hx⟩ := exec_modifyTable hrow s
  rw [modifyA_eq_advance] at ha
  rw [modifyX_eq_advance] at hx
  exact ⟨inherentLeaves_of_next ha, inherentLeaves_of_next hx⟩

/-! ### CLR and TST -/

/-- The flags of CLR are those of the byte zero (R42, R143). -/
theorem clearFlags_eq_logic8 (f : Ccr) : clearFlags f = logic8 0#8 f := rfl

/-- CLR of a memory byte is a store of zero: one write and no read (R143). -/
theorem exec_clr (m : MemMode) (s : State) : exec (.clr m) s = .next (storeRegister m 0#8 s) := by
  rw [storeRegister, ← clearFlags_eq_logic8]
  rfl

/-- Settles O33: CLR is a store, TST a reader that keeps its result to the flags, and the other forms are inherent. -/
theorem clearAndTestInstructions : Obligations.ClearAndTestInstructions := by
  unfold Obligations.ClearAndTestInstructions
  intro s m cleared tested
  refine ⟨fun hm => exec_storeRegister hm (exec_clr m s), fun i a x h f len hi => ?_⟩
  simp only [List.mem_cons, Prod.mk.injEq, List.not_mem_nil, or_false] at hi
  obtain ⟨rfl, rfl, rfl, rfl, rfl, rfl⟩ | ⟨rfl, rfl, rfl, rfl, rfl, rfl⟩ | ⟨rfl, rfl, rfl, rfl, rfl, rfl⟩ |
    ⟨rfl, rfl, rfl, rfl, rfl, rfl⟩ | ⟨rfl, rfl, rfl, rfl, rfl, rfl⟩ | ⟨rfl, rfl, rfl, rfl, rfl, rfl⟩ := hi
  on_goal 6 => exact readerLeaves_of_compareWith (src := .mem m) (op := logicResult) rfl
  all_goals exact inherentLeaves_of_next rfl

end Sys2Proof.Machine

/-! Bit manipulation: what an instruction on one bit of a byte of the direct page leaves of the state it starts in (R160
to R163). -/

namespace Sys2Proof.Machine

open Sys2Proof.Safety

/-! ### BSET and BCLR -/

/-- What a read-modify-write of a byte of the direct page leaves: the changed byte in its place, and nothing else, the
flags included (R160, R163). -/
theorem exec_rewriteDirect {i : Instr} {s : State} {dd : Byte} {change : Byte → Byte} (hm : s.mem.wf = true)
    (h : exec i s = .next (rewriteDirect dd change s)) :
    ∃ t, exec i s = .next t ∧ StoredAt s t (zext16 dd) (change (directValue dd s)) ∧ Registers t s.a s.x s.h s.sp ∧
      t.ccr = s.ccr ∧ GoesTo s t (s.pc + 2#16) ∧ SameSurroundings s t := by
  have read : Continues s ((s.fetch 1).load .r (zext16 dd)) := ((Continues.refl s).fetch 1).load .r _
  refine ⟨_, h, read.storedAt hm (by simp) ?stored, ?registers, by simp [rewriteDirect],
    exec_goesTo h (rewriteDirect_pc s dd change), (Continues.rewriteDirect s dd change).2⟩
  case stored => rw [rewriteDirect, State.advance_mem]
  case registers => simp [Registers, rewriteDirect]

/-- BSET and BCLR differ only in what they make of the byte they read: bit `n` is as they say, and the other bits are
those read (R160, R163). -/
theorem exec_oneBit {i : Instr} {s : State} {n : Fin 8} {dd : Byte} {on : Bool}
    (hi : (i = .bset n dd ∧ on = true) ∨ (i = .bclr n dd ∧ on = false)) :
    ∃ change : Byte → Byte, exec i s = .next (rewriteDirect dd change s) ∧
      ∀ k, k < 8 → (change (directValue dd s)).getLsbD k = if k = n.val then on else (directValue dd s).getLsbD k := by
  obtain ⟨-, v, hwrites, hbits⟩ := exchange_oneBit (s := s) hi
  obtain ⟨rfl, rfl⟩ | ⟨rfl, rfl⟩ := hi <;> cases hwrites
  · exact ⟨fun v => v ||| bitMask n, rfl, hbits⟩
  · exact ⟨fun v => v &&& ~~~bitMask n, rfl, hbits⟩

/-- Settles O34: a read-modify-write of the direct byte, with the bits of what it stores. -/
theorem bitSetAndClear : Obligations.BitSetAndClear := by
  unfold Obligations.BitSetAndClear
  intro s n dd i on hm hi
  obtain ⟨change, hexec, hbits⟩ := exec_oneBit (s := s) hi
  obtain ⟨t, ht, hleaves⟩ := exec_rewriteDirect hm hexec
  exact ⟨t, _, ht, hbits, hleaves⟩

/-! ### BRSET and BRCLR -/

/-- What a branch on a bit of a byte of the direct page leaves: the tested bit in C, the branch taken if that bit is the
one asked for, and nothing else (R161, R162). -/
theorem exec_branchOnBit {i : Instr} {s : State} {sense : Bool} {n : Fin 8} {dd rr : Byte}
    (h : exec i s = .next (branchOnBit sense n dd rr s)) :
    ∃ t, exec i s = .next t ∧ Registers t s.a s.x s.h s.sp ∧
      t.ccr = s.ccr.withC ((directValue dd s).getLsbD n.val) ∧
      GoesTo s t (if (directValue dd s).getLsbD n.val = sense then s.pc + 3#16 + sext16 rr else s.pc + 3#16) ∧
      SameBytes s t ∧ SameSurroundings s t :=
  ⟨_, h, by simp [Registers, branchOnBit], by simp [branchOnBit], exec_goesTo h (by simp [branchOnBit]),
    sameBytes_of_mem (by simp [branchOnBit]), (Continues.branchOnBit s sense n dd rr).2⟩

end Sys2Proof.Machine

namespace Sys2Proof

/-- Settles O35, outside the model's namespace, where the name is that of the meaning of these instructions. -/
theorem branchOnBit : Obligations.BranchOnBit := by
  unfold Obligations.BranchOnBit
  intro s n dd rr i sense hi bit
  obtain ⟨rfl, rfl⟩ | ⟨rfl, rfl⟩ := hi <;> exact Machine.exec_branchOnBit rfl

end Sys2Proof

/-! Branches: where an instruction that ends in one goes on and what it leaves alone (R170 to R194), and which order of
two values the flags of their comparison tell the branches (R38, R39, R195). -/

namespace Sys2Proof.Machine

open Sys2Proof.Safety

/-! ### How a branch ends an instruction -/

/-- Every branch is decided by a bit known before its last cycle, the fetch of the opcode it goes to (R95, R170). -/
theorem exec_branch {i : Instr} {s u : State} {taken : Bool} {len : Nat} {rr : Byte}
    (h : exec i s = .next (u.branch taken len rr)) (hu : Continues s u) (hpc : u.pc = s.pc) :
    GoesTo s (u.branch taken len rr)
        (if taken then s.pc + BitVec.ofNat 16 len + sext16 rr else s.pc + BitVec.ofNat 16 len) ∧
      SameSurroundings s (u.branch taken len rr) :=
  ⟨exec_goesTo h (by rw [State.branch_pc, hpc]), (hu.branch taken len rr).2⟩

/-! ### The two-byte branches -/

/-- `i` is a two-byte branch that is taken on `cond` (R170). -/
def BranchesOn (i : Instr) (rr : Byte) (s : State) (cond : Prop) : Prop :=
  ∃ taken : Bool, exec i s = .next (simpleBranch taken rr s) ∧ (cond ↔ taken = true)

/-- A two-byte branch changes nothing but where control goes on (R170). -/
theorem BranchesOn.leaves {i : Instr} {rr : Byte} {s : State} {cond : Prop} (h : BranchesOn i rr s cond) :
    ∃ t, exec i s = .next t ∧ (cond → GoesTo s t (s.pc + 2#16 + sext16 rr)) ∧ (¬ cond → GoesTo s t (s.pc + 2#16)) ∧
      Registers t s.a s.x s.h s.sp ∧ t.ccr = s.ccr ∧ SameBytes s t ∧ SameSurroundings s t := by
  obtain ⟨taken, hexec, htaken⟩ := h
  obtain ⟨hgoes, hsame⟩ := exec_branch hexec ((Continues.refl s).fetchThenDummy 1) (by simp)
  refine ⟨_, hexec, fun hc => ?taken, fun hc => ?past, by simp [Registers, simpleBranch], by simp [simpleBranch],
    sameBytes_of_mem (by simp [simpleBranch]), hsame⟩
  case taken => rwa [if_pos (htaken.mp hc)] at hgoes
  case past => rwa [if_neg fun h => hc (htaken.mpr h)] at hgoes

/-- The conditions of R171 to R192, against the bit that each branch computes from the state it starts in. -/
theorem branchTable_branchesOn {s : State} {row : (Byte → Instr) × Prop} (hrow : row ∈ branchTable s) (rr : Byte) :
    BranchesOn (row.1 rr) rr s row.2 := by
  simp only [branchTable, List.mem_cons, List.not_mem_nil, or_false] at hrow
  obtain rfl | rfl | rfl | rfl | rfl | rfl | rfl | rfl | rfl | rfl | rfl | rfl | rfl | rfl | rfl | rfl | rfl | rfl | rfl |
    rfl := hrow <;> exact ⟨_, rfl, by simp⟩

/-- Settles O36: the twenty rows differ in the bit that decides, not in what the branch does. -/
theorem simpleBranches : Obligations.SimpleBranches := by
  unfold Obligations.SimpleBranches
  intro s rr row hrow
  exact (branchTable_branchesOn hrow rr).leaves

/-! ### DBNZ -/

/-- A branch on a decremented value that is not zero writes no flag (R194). -/
theorem exec_branch_ne_zero {i : Instr} {s u : State} {r : Byte} {len : Nat} {rr : Byte}
    (h : exec i s = .next (u.branch (r != 0#8) len rr)) (hu : Continues s u) (hpc : u.pc = s.pc) (hccr : u.ccr = s.ccr) :
    GoesTo s (u.branch (r != 0#8) len rr)
        (if r = 0#8 then s.pc + BitVec.ofNat 16 len else s.pc + BitVec.ofNat 16 len + sext16 rr) ∧
      (u.branch (r != 0#8) len rr).ccr = s.ccr ∧ SameSurroundings s (u.branch (r != 0#8) len rr) := by
  obtain ⟨hgoes, hsame⟩ := exec_branch h hu hpc
  simp only [bne_iff_ne, ite_not] at hgoes
  exact ⟨hgoes, by rw [State.branch_ccr, hccr], hsame⟩

/-- Settles O38: the three forms differ in where the decremented value goes before the branch. -/
theorem decrementAndBranch : Obligations.DecrementAndBranch := by
  unfold Obligations.DecrementAndBranch
  intro s rr next
  have start : Continues s (s.fetchThenDummy 1) := (Continues.refl s).fetchThenDummy 1
  refine ⟨⟨_, rfl, by simp [Registers], ?onA, sameBytes_of_mem (by simp)⟩,
    ⟨_, rfl, by simp [Registers], ?onX, sameBytes_of_mem (by simp)⟩, fun hm m => ?onMemory⟩
  case onA => exact exec_branch_ne_zero (i := .dbnza rr) rfl (start.setA _) (by simp) (by simp)
  case onX => exact exec_branch_ne_zero (i := .dbnzx rr) rfl (start.setX _) (by simp) (by simp)
  case onMemory =>
    have read : Continues s ((s.fetch (modeLength m)).load .r (effectiveAddress m s)) :=
      ((Continues.refl s).fetch _).load .r _
    exact ⟨_, rfl, by simp [Registers],
      exec_branch_ne_zero (i := .dbnz m rr) rfl (read.write _ _) (by simp) (by simp),
      read.storedAt hm (by simp) (by rw [State.branch_mem, dbnzValue])⟩

/-! ### The flags of a comparison -/

/-- The flags tell the order of `r` and `m`: C the unsigned order, N and V together the signed one, Z equality. -/
def TellOrder {w : Nat} (f : Ccr) (r m : BitVec w) : Prop :=
  (f.c = true ↔ r.toNat < m.toNat) ∧ (f.z = true ↔ r = m) ∧ (f.n ≠ f.v ↔ r.toInt < m.toInt)

/-- The sign of a difference is right unless the difference overflows, which it does only for operands of different
signs (R38, R39). -/
theorem msb_sub_ne_overflow_iff {w : Nat} (r m : BitVec w) :
    ((r - m).msb ≠ (r.msb != m.msb && (r - m).msb != r.msb)) ↔ r.toInt < m.toInt := by
  by_cases hsign : r.msb = m.msb
  case pos =>
    have hr := r.le_toInt
    have hm := m.le_toInt
    have hr' := r.toInt_lt
    have hm' := m.toInt_lt
    have hexact : (r - m).toInt = r.toInt - m.toInt := by
      apply BitVec.toInt_sub_of_not_ssubOverflow
      simp only [BitVec.msb_eq_toInt, decide_eq_decide] at hsign
      simp only [BitVec.ssubOverflow, Bool.or_eq_true, decide_eq_true_eq]
      omega
    rw [hsign, bne_self_eq_false, Bool.false_and, BitVec.msb_eq_toInt, hexact, ne_eq, decide_eq_false_iff_not]
    omega
  case neg =>
    have hlt : r.toInt < m.toInt ↔ r.msb = true := by
      simp only [BitVec.msb_eq_toInt, decide_eq_decide, decide_eq_true_eq] at hsign ⊢
      omega
    rw [hlt, bne_iff_ne.mpr hsign, Bool.true_and]
    cases r.msb <;> simp

theorem sub8_tellOrder (r m : Byte) (f : Ccr) : TellOrder (sub8 r m false f).2 r m := by
  refine ⟨?borrow, ?zero, ?sign⟩
  case borrow => rw [sub8_c, decide_eq_true_eq]; rfl
  case zero => rw [sub8_z, decide_eq_true_eq, sub8_false_fst]; exact sub_eq_zero
  case sign => rw [sub8_n, sub8_v, sub8_false_fst]; exact msb_sub_ne_overflow_iff r m

theorem sub16_tellOrder (r m : Word) (f : Ccr) : TellOrder (sub16 r m f).2 r m := by
  refine ⟨?borrow, ?zero, ?sign⟩
  case borrow => rw [sub16_c, decide_eq_true_eq]
  case zero => rw [sub16_z, decide_eq_true_eq]; exact sub_eq_zero
  case sign => rw [sub16_n, sub16_v]; exact msb_sub_ne_overflow_iff r m

section
variable {s t : State}

/-- CMP, SUB, and SBC when there is no borrow in, compare `A` with the operand (R125, R131, R134). -/
theorem exec_compareA_tellOrder {i : Instr} {src : Source}
    (hi : i = .cmp src ∨ i = .sub src ∨ (i = .sbc src ∧ s.ccr.c = false)) (h : exec i s = .next t) :
    TellOrder t.ccr s.a (sourceValue src s) := by
  have hccr : t.ccr = (sub8 s.a (sourceValue src s) false s.ccr).2 := by
    obtain rfl | rfl | ⟨rfl, hborrow⟩ := hi <;> cases h
    · exact (compareWith_spec src (fun m f => sub8 s.a m false f) s).1
    · obtain ⟨-, hccr, -⟩ := accumulate_spec src (fun m f => sub8 s.a m false f) s
      exact hccr
    · obtain ⟨-, hccr, -⟩ := accumulate_spec src (fun m f => sub8 s.a m f.c f) s
      exact hborrow ▸ hccr
  exact hccr ▸ sub8_tellOrder s.a (sourceValue src s) s.ccr

theorem exec_cpx_tellOrder {src : Source} (h : exec (.cpx src) s = .next t) :
    TellOrder t.ccr s.x (sourceValue src s) := by
  cases h
  exact sub8_tellOrder s.x (sourceValue src s) s.ccr

theorem exec_cphx_tellOrder {src : Source16} (h : exec (.cphx src) s = .next t) :
    TellOrder t.ccr s.hx (source16Value src s) := by
  cases h
  exact sub16_tellOrder s.hx (source16Value src s) s.ccr

end

/-! ### Branching on a comparison -/

/-- The branches of R195, each with the order of `R` and `M` that its name says: unsigned values `ru` and `mu`, signed
values `rs` and `ms`. -/
def orderBranches (ru mu : Nat) (rs ms : Int) : List ((Byte → Instr) × Prop) :=
  [(.bhi, mu < ru), (.bcc, mu ≤ ru), (.bls, ru ≤ mu), (.bcs, ru < mu), (.beq, ru = mu), (.bne, ru ≠ mu),
    (.bgt, ms < rs), (.bge, ms ≤ rs), (.ble, rs ≤ ms), (.blt, rs < ms)]

/-- On flags that tell the order, each of these branches is taken on its order: Z, which says that the bytes or words
are equal, says so of both readings of them. -/
theorem TellOrder.branchesOn {t : State} {w : Nat} {r m : BitVec w} (h : TellOrder t.ccr r m) (rr : Byte)
    {j : Byte → Instr} {cond : Prop} (hj : (j, cond) ∈ orderBranches r.toNat m.toNat r.toInt m.toInt) :
    BranchesOn (j rr) rr t cond := by
  obtain ⟨hc, heq, hlt⟩ := h
  have hunsigned : t.ccr.z = true ↔ r.toNat = m.toNat := heq.trans BitVec.toNat_inj.symm
  have hsigned : t.ccr.z = true ↔ r.toInt = m.toInt := heq.trans BitVec.toInt_inj.symm
  simp only [orderBranches, List.mem_cons, Prod.mk.injEq, List.not_mem_nil, or_false] at hj
  obtain ⟨rfl, rfl⟩ | ⟨rfl, rfl⟩ | ⟨rfl, rfl⟩ | ⟨rfl, rfl⟩ | ⟨rfl, rfl⟩ | ⟨rfl, rfl⟩ | ⟨rfl, rfl⟩ | ⟨rfl, rfl⟩ |
    ⟨rfl, rfl⟩ | ⟨rfl, rfl⟩ := hj <;> exact ⟨_, rfl, by grind⟩

/-- Settles O25: the comparison leaves flags that tell the order, and the branch is taken on that order. -/
theorem branchAfterCompare : Obligations.BranchAfterCompare := by
  unfold Obligations.BranchAfterCompare
  intro s rr t i ru mu rs ms hform hexec j cond hj
  have hbranches : BranchesOn (j rr) rr t cond := by
    obtain ⟨src, m, rfl, ⟨hi, rfl, rfl⟩ | ⟨rfl, rfl, rfl⟩, rfl, rfl⟩ | ⟨src, m, rfl, rfl, rfl, rfl, rfl, rfl⟩ := hform
    · exact (exec_compareA_tellOrder hi hexec).branchesOn rr hj
    · exact (exec_cpx_tellOrder hexec).branchesOn rr hj
    · exact (exec_cphx_tellOrder hexec).branchesOn rr hj
  obtain ⟨u, hu, htaken, hpast, -⟩ := hbranches.leaves
  exact ⟨u, hu, fun hc => (htaken hc).1, fun hc => (hpast hc).1⟩

end Sys2Proof.Machine

/-! Jumps and subroutines: what a jump, a call and a return leave of the state they start in, and that the return undoes
the call (R200 to R203). -/

namespace Sys2Proof.Machine

open Sys2Proof.Safety

/-! ### JMP -/

/-- JMP makes no cycle that stores, with or without the `d` cycle of the modes that have an offset (R201). -/
theorem exec_jmp (m : MemMode) (s : State) :
    ∃ u, exec (.jmp m) s = .next (u.goto (effectiveAddress m s)) ∧ Continues s u ∧ Registers u s.a s.x s.h s.sp ∧
      u.ccr = s.ccr ∧ u.mem = s.mem := by
  refine ⟨_, rfl, ?_⟩
  split
  · exact ⟨(Continues.refl s).fetchThenDummy _, by simp [Registers], by simp, by simp⟩
  · exact ⟨(Continues.refl s).fetch _, by simp [Registers], by simp, by simp⟩

/-! ### JSR and BSR -/

/-- `u` is `s` with the return address `ret` pushed, low byte first, and otherwise the registers, flags and bytes of
`s` (R200, R202). -/
def Called (s u : State) (ret : Word) : Prop :=
  Continues s u ∧ Registers u s.a s.x s.h (s.sp - 2#16) ∧ u.ccr = s.ccr ∧
    u.mem.read s.sp.toNat = loByte ret ∧ u.mem.read (s.sp - 1#16).toNat = hiByte ret ∧
    ∀ c : Word, c ≠ s.sp → c ≠ s.sp - 1#16 → u.mem.read c.toNat = s.mem.read c.toNat

/-- A read and a prefetch leave the stacked return address alone. -/
theorem Called.of_continues {s u v : State} {ret : Word} (h : Called s u ret) (hv : Continues s v)
    (hregs : Registers v u.a u.x u.h u.sp) (hccr : v.ccr = u.ccr) (hmem : v.mem = u.mem) : Called s v ret := by
  obtain ⟨-, ⟨ha, hx, hh, hsp⟩, hccr', hbytes⟩ := h
  exact ⟨hv, ha ▸ hx ▸ hh ▸ hsp ▸ hregs, hccr.trans hccr', hmem ▸ hbytes⟩

theorem Called.dummy {s u : State} {ret : Word} (h : Called s u ret) (a : Word) : Called s (u.dummy a) ret :=
  h.of_continues (h.1.dummy a) (by simp [Registers]) (by simp) (by simp)

theorem Called.goto {s u : State} {ret : Word} (h : Called s u ret) (target : Word) : Called s (u.goto target) ret :=
  h.of_continues (h.1.goto target) (by simp [Registers]) (by simp) (by simp)

section
variable {s : State} (hm : s.mem.wf = true) (hlo : s.isRam s.sp = true) (hhi : s.isRam (s.sp - 1#16) = true)
include hm hlo hhi

theorem called_call (fetches : Nat) (ret : Word) : Called s (call fetches ret s) ret := by
  have hread (c : Word) : (call fetches ret s).mem.read c.toNat =
      if c = s.sp - 1#16 then hiByte ret else if c = s.sp then loByte ret else s.mem.read c.toNat := by
    rw [call, State.pushWord_memRead _ (by simpa using hm)]
    simp [hlo, hhi]
  have hne : s.sp ≠ s.sp - 1#16 := by bv_omega
  refine ⟨Continues.call s fetches ret, ?registers, by simp [call], ?low, ?high, fun c hc hc' => ?other⟩
  case registers => simp [Registers, call, BitVec.sub_eq_add_neg, BitVec.add_assoc]
  case low => rw [hread, if_neg hne, if_pos rfl]
  case high => rw [hread, if_pos rfl]
  case other => rw [hread, if_neg hc', if_neg hc]

/-- JSR and BSR differ in the return address, in the target, and in the `d` cycle that JSR makes in the modes that have
an offset. -/
theorem exec_call {i : Instr} {ret target : Word}
    (hi : (∃ m, i = .jsr m ∧ ret = s.pc + BitVec.ofNat 16 (modeLength m) ∧ target = effectiveAddress m s) ∨
      (∃ rr, i = .bsr rr ∧ ret = s.pc + 2#16 ∧ target = s.pc + 2#16 + sext16 rr)) :
    ∃ u, exec i s = .next (u.goto target) ∧ Called s u ret := by
  obtain ⟨m, rfl, rfl, rfl⟩ | ⟨rr, rfl, rfl, rfl⟩ := hi
  · refine ⟨_, rfl, ?_⟩
    split
    · exact (called_call hm hlo hhi _ _).dummy _
    · exact called_call hm hlo hhi _ _
  · exact ⟨_, rfl, called_call hm hlo hhi 1 _⟩

end

/-- Settles O39: what `exec_jmp` and `exec_call` say, with the prefetch at the target. -/
theorem jumpsAndCalls : Obligations.JumpsAndCalls := by
  unfold Obligations.JumpsAndCalls
  refine ⟨fun s m => ?jump, fun s i ret target hm hlo hhi hi => ?call⟩
  case jump =>
    obtain ⟨u, hexec, hu, hregs, hccr, hmem⟩ := exec_jmp m s
    exact ⟨_, hexec, exec_goesTo hexec (by simp), by simpa [Registers] using hregs, by simpa using hccr,
      sameBytes_of_mem (by simpa using hmem), (hu.goto _).2⟩
  case call =>
    obtain ⟨u, hexec, hcalled⟩ := exec_call hm hlo hhi hi
    obtain ⟨⟨-, hsame⟩, hregs, hccr, hlow, hhigh, hother⟩ := hcalled.goto target
    exact ⟨_, hexec, exec_goesTo hexec (by simp), hregs, hccr, hlow, hhigh, hother, hsame⟩

/-! ### RTS -/

/-- The cycles that pull a word, high byte first (R59, R203). -/
theorem Ran.pullWord {s t : State} {bus : List BusAccess} (h : Ran s t bus) :
    Ran s t.pullWord.2
      (bus ++ [⟨.u, t.sp + 1#16, hiByte t.pullWord.1⟩, ⟨.u, t.sp + 2#16, loByte t.pullWord.1⟩]) := by
  have hpulls := h.pull.pull
  have hsp : t.pull.2.sp + 1#16 = t.sp + 2#16 := by simp [BitVec.add_assoc]
  rw [hsp, List.append_assoc] at hpulls
  simpa using hpulls

/-- The state that RTS leaves (R203). -/
def State.returned (s : State) : State := (s.fetch 1).pullWord.2.goto (s.fetch 1).pullWord.1

theorem exec_rts (s : State) : exec .rts s = .next s.returned := rfl

/-- The cycles of RTS, `puup` (R203). -/
theorem State.returned_cycles (s : State) :
    Ran s s.returned [⟨.p, s.pc + 1#16, s.read (s.pc + 1#16)⟩, ⟨.u, s.sp + 1#16, hiByte s.returned.pc⟩,
      ⟨.u, s.sp + 2#16, loByte s.returned.pc⟩, ⟨.p, s.returned.pc, s.returned.ibuf⟩] := by
  have hran := (Ran.refl s).fetchOne.pullWord.goto (s.fetch 1).pullWord.1
  rw [State.fetch_sp] at hran
  exact hran

/-- Settles O40: the two pulls of `puup` give the address of its last fetch. -/
theorem returnFromSubroutine : Obligations.ReturnFromSubroutine := by
  unfold Obligations.ReturnFromSubroutine
  intro s
  obtain ⟨-, hcycles, -, -, -, -, hcoherent⟩ := s.returned_cycles.spec
  exact ⟨_, _, _, _, _, exec_rts s, hcycles, hcycles ▸ hcoherent, (wordOf_hi_lo _).symm, rfl,
    by simp [Registers, State.returned, BitVec.add_assoc], by simp [State.returned],
    sameBytes_of_mem (by simp [State.returned]), (((Continues.refl s).fetch 1).pullWord.goto _).2⟩

/-! ### The return undoes the call -/

/-- A cycle that reads RAM, with no store before it, finds the byte that memory held at the start (R69). -/
theorem coherent_data_of_ram {s : State} {bus : List BusAccess} (h : Coherent s bus) {k : Nat} {c : BusAccess}
    (hk : bus[k]? = some c) (hread : c.stored = none)
    (hquiet : ((bus.take k).map BusAccess.kind).any BusCycle.stores = false) (hram : s.isRam c.addr = true) :
    c.data = s.mem.read c.addr.toNat := by
  rw [h k c hk hread, State.read_ram _ (by simpa using hram), State.partWay_mem_of_reads _ s hquiet]

/-- RTS with RAM above `SP` goes to the word there, high byte at the lower address (R203). -/
theorem exec_rts_ram {s : State} (hhi : s.isRam (s.sp + 1#16) = true) (hlo : s.isRam (s.sp + 2#16) = true) :
    ∃ t, exec .rts s = .next t ∧
      t.pc = wordOf (s.mem.read (s.sp + 1#16).toNat) (s.mem.read (s.sp + 2#16).toNat) ∧
      Registers t s.a s.x s.h (s.sp + 2#16) ∧ t.ccr = s.ccr ∧ SameBytes s t := by
  obtain ⟨t, _, hi, lo, _, hexec, hcycles, hcoherent, hpc, -, hregs, hccr, hbytes, -⟩ := returnFromSubroutine s
  rw [hcycles] at hcoherent
  have hhigh : hi = s.mem.read (s.sp + 1#16).toNat := coherent_data_of_ram hcoherent (k := 1) rfl rfl rfl hhi
  have hlow : lo = s.mem.read (s.sp + 2#16).toNat := coherent_data_of_ram hcoherent (k := 2) rfl rfl rfl hlo
  exact ⟨t, hexec, by rw [hpc, hhigh, hlow], hregs, hccr, hbytes⟩

/-- A call pushes the address of the instruction after it, whatever its target (R200, R202). -/
theorem call_return_address (s : State) {i : Instr} (hi : (∃ m, i = .jsr m) ∨ (∃ rr, i = .bsr rr)) :
    ∃ target, let ret := s.pc + BitVec.ofNat 16 (encode i).length
      (∃ m, i = .jsr m ∧ ret = s.pc + BitVec.ofNat 16 (modeLength m) ∧ target = effectiveAddress m s) ∨
      (∃ rr, i = .bsr rr ∧ ret = s.pc + 2#16 ∧ target = s.pc + 2#16 + sext16 rr) := by
  obtain ⟨m, rfl⟩ | ⟨rr, rfl⟩ := hi
  · exact ⟨_, .inl ⟨m, rfl, by rw [encode, length_encodeMem], rfl⟩⟩
  · exact ⟨_, .inr ⟨rr, rfl, rfl, rfl⟩⟩

/-- Settles O20: RTS finds, above the `SP` that the call leaves, the two bytes that the call stored. -/
theorem returnUndoesCall : Obligations.ReturnUndoesCall := by
  unfold Obligations.ReturnUndoesCall
  intro s u i hm hlo hhi _ hi hexec
  obtain ⟨target, hform⟩ := call_return_address s hi
  obtain ⟨-, hcalls⟩ := jumpsAndCalls
  obtain ⟨v, hcall, -, ⟨ha, hx, hh, hsp⟩, hccr, hlow, hhigh, -, hsame⟩ := hcalls s i _ target hm hlo hhi hform
  obtain rfl : v = u := Host.Outcome.next.inj (hcall.symm.trans hexec)
  have hsp1 : v.sp + 1#16 = s.sp - 1#16 := by rw [hsp]; bv_omega
  have hsp2 : v.sp + 2#16 = s.sp := by rw [hsp]; bv_omega
  have hram (b : Word) : v.isRam b = s.isRam b := isRam_of_sameSurroundings hsame b
  obtain ⟨t, hrts, hpc, hregs, hccr', hbytes⟩ :=
    exec_rts_ram (s := v) (by rw [hsp1, hram, hhi]) (by rw [hsp2, hram, hlo])
  rw [hsp1, hsp2, hhigh, hlow, wordOf_hi_lo] at hpc
  rw [ha, hx, hh, hsp2] at hregs
  exact ⟨t, hrts, hregs, hccr'.trans hccr, exec_goesTo hrts hpc, hbytes⟩

end Sys2Proof.Machine

/-! Instructions on the index register and the stack pointer: what AIS, AIX, TSX, TXS and RSP leave of the state they
start in (R210, R211, R221, R223, R224). -/

namespace Sys2Proof.Machine

open Sys2Proof.Safety

/-- The instruction, of `len` bytes, leaves these values in `H:X` and `SP`, and writes neither `A` nor a flag nor
memory. -/
def LeavesPointers (i : Instr) (s : State) (hx sp : Word) (len : Nat) : Prop :=
  ∃ t, exec i s = .next t ∧ t.a = s.a ∧ t.hx = hx ∧ t.sp = sp ∧ t.ccr = s.ccr ∧
    GoesTo s t (s.pc + BitVec.ofNat 16 len) ∧ SameBytes s t ∧ SameSurroundings s t

section
variable {i : Instr} {s : State} {v : Word} {fetches len : Nat}

/-- `SP` is written after the prefetch; the pair `H:X` is not (R210, R221, R224). -/
theorem leavesPointers_of_setSp (h : exec i s = .next (((s.fetch fetches).advance len).setSp v)) :
    LeavesPointers i s s.hx v len :=
  ⟨_, h, by simp, hx_congr (by simp) (by simp), State.setSp_sp _ v, by simp, exec_goesTo h (by simp),
    sameBytes_of_mem (by simp), ((((Continues.refl s).fetch fetches).advance len).setSp v).2⟩

/-- The pair `H:X` is written after the prefetch; `SP` is not (R211, R223). -/
theorem leavesPointers_of_setHx (h : exec i s = .next (((s.fetch fetches).advance len).setHx v)) :
    LeavesPointers i s v s.sp len :=
  ⟨_, h, by simp, State.setHx_hx _ v, by simp, by simp, exec_goesTo h (by simp),
    sameBytes_of_mem (by simp), ((((Continues.refl s).fetch fetches).advance len).setHx v).2⟩

end

/-- A word with its low byte replaced by `$FF` is the word with those eight bits set (R221). -/
theorem wordOf_hiByte_ones (w : Word) : wordOf (hiByte w) 0xFF#8 = w ||| 0x00FF#16 := by
  have hlow : loByte w ||| 0xFF#8 = 0xFF#8 := BitVec.or_allOnes
  calc wordOf (hiByte w) 0xFF#8
    _ = wordOf (hiByte w ||| 0x00#8) (loByte w ||| 0xFF#8) := by rw [hlow, BitVec.or_zero]
    _ = wordOf (hiByte w) (loByte w) ||| wordOf 0x00#8 0xFF#8 := BitVec.or_append.symm
    _ = w ||| 0x00FF#16 := by rw [wordOf_hi_lo]; rfl

/-- RSP makes no fetch but that of the next opcode (R221). -/
theorem exec_rsp (s : State) : exec .rsp s = .next (((s.fetch 0).advance 1).setSp (s.sp ||| 0x00FF#16)) := by
  rw [← wordOf_hiByte_ones]
  rfl

/-- Settles O41: AIS, TXS and RSP write `SP`, AIX and TSX the pair `H:X`. -/
theorem indexAndStackPointer : Obligations.IndexAndStackPointer := by
  unfold Obligations.IndexAndStackPointer
  intro s ii i hx sp len hi
  simp only [List.mem_cons, Prod.mk.injEq, List.not_mem_nil, or_false] at hi
  obtain ⟨rfl, rfl, rfl, rfl⟩ | ⟨rfl, rfl, rfl, rfl⟩ | ⟨rfl, rfl, rfl, rfl⟩ | ⟨rfl, rfl, rfl, rfl⟩ |
    ⟨rfl, rfl, rfl, rfl⟩ := hi
  · exact leavesPointers_of_setSp (i := .ais ii) (fetches := 1) rfl
  · exact leavesPointers_of_setHx (i := .aix ii) (fetches := 1) rfl
  · exact leavesPointers_of_setHx (i := .tsx) (fetches := 1) rfl
  · exact leavesPointers_of_setSp (i := .txs) (fetches := 1) rfl
  · exact leavesPointers_of_setSp (exec_rsp s)

end Sys2Proof.Machine

/-! Inherent and system instructions: what an instruction of one byte leaves of the state it starts in, and the
arithmetic of MUL, NSA, DIV and DAA (R230 to R242). -/

namespace Sys2Proof.Machine

open Sys2Proof.Safety

/-! ### One-byte instructions that wait -/

/-- The cycles of a one-byte instruction, and writes of `A`, `X`, `H` and the flags, have led from `s` to `t`: its
opcode is past, and neither a store nor a pull was made on the way. -/
def PastOpcode (s t : State) : Prop :=
  Continues s t ∧ t.sp = s.sp ∧ t.pc = s.pc + 1#16 ∧ t.mem = s.mem

namespace PastOpcode

section
variable (s : State) (n : Nat)

/-- The cycles `p` and `n` times `d` (R230, R231). -/
theorem advance : PastOpcode s (s.advanceThenDummies n) :=
  ⟨(Continues.refl s).advanceThenDummies n, by simp, by simp, by simp⟩

/-- The cycles `pp` and `n` times `d`: the first fetch is a surplus one (92 D14). -/
theorem fetch : PastOpcode s ((s.fetch 1).advanceThenDummies n) :=
  ⟨((Continues.refl s).fetch 1).advanceThenDummies n, by simp, by simp, by simp⟩

/-- The cycles `pdp` and `n` times `d` (R233). -/
theorem fetchThenDummy : PastOpcode s ((s.fetchThenDummy 1).advanceThenDummies n) :=
  ⟨((Continues.refl s).fetchThenDummy 1).advanceThenDummies n, by simp, by simp, by simp⟩

end

section
variable {s t : State} (h : PastOpcode s t)
include h

theorem setA (v : Byte) : PastOpcode s (t.setA v) := ⟨h.1.setA v, h.2⟩
theorem setX (v : Byte) : PastOpcode s (t.setX v) := ⟨h.1.setX v, h.2⟩
theorem setH (v : Byte) : PastOpcode s (t.setH v) := ⟨h.1.setH v, h.2⟩
theorem setCcr (f : Ccr) : PastOpcode s (t.setCcr f) := ⟨h.1.setCcr f, h.2⟩

/-- The registers and flags that were written are all that the instruction leaves. -/
theorem leaves {i : Instr} (ht : exec i s = .next t) : InherentLeaves i s t.a t.x t.h t.ccr := by
  obtain ⟨hcont, hsp, hpc, hmem⟩ := h
  exact ⟨t, ht, ⟨rfl, rfl, rfl, hsp⟩, rfl, exec_goesTo ht hpc, sameBytes_of_mem hmem, hcont.2⟩

end

end PastOpcode

/-- Settles O45. -/
theorem flagAndTransferInstructions : Obligations.FlagAndTransferInstructions := by
  unfold Obligations.FlagAndTransferInstructions
  intro s i op code a x f hi
  have hspec : (encode i = [op] ∧ cycleCode i = code) ∧ InherentLeaves i s a x s.h f := by
    simp only [List.mem_cons, Prod.mk.injEq, List.not_mem_nil, or_false] at hi
    obtain ⟨rfl, rfl, rfl, rfl, rfl, rfl⟩ | ⟨rfl, rfl, rfl, rfl, rfl, rfl⟩ | ⟨rfl, rfl, rfl, rfl, rfl, rfl⟩ |
      ⟨rfl, rfl, rfl, rfl, rfl, rfl⟩ | ⟨rfl, rfl, rfl, rfl, rfl, rfl⟩ | ⟨rfl, rfl, rfl, rfl, rfl, rfl⟩ := hi
    · exact ⟨⟨rfl, rfl⟩, by simpa [Ccr.withC] using ((PastOpcode.advance s 0).setCcr _).leaves (i := .clc) rfl⟩
    · exact ⟨⟨rfl, rfl⟩, by simpa [Ccr.withC] using ((PastOpcode.advance s 0).setCcr _).leaves (i := .sec) rfl⟩
    · exact ⟨⟨rfl, rfl⟩, by simpa [Ccr.withI] using ((PastOpcode.advance s 1).setCcr _).leaves (i := .sei) rfl⟩
    · exact ⟨⟨rfl, rfl⟩, by simpa using (PastOpcode.advance s 0).leaves (i := .nop) rfl⟩
    · exact ⟨⟨rfl, rfl⟩, by simpa using ((PastOpcode.advance s 0).setX _).leaves (i := .tax) rfl⟩
    · exact ⟨⟨rfl, rfl⟩, by simpa using ((PastOpcode.advance s 0).setA _).leaves (i := .txa) rfl⟩
  obtain ⟨⟨hop, hcode⟩, hleaves⟩ := hspec
  exact ⟨hop, hcode, hleaves⟩

/-! ### CLI, TAP and TPA -/

/-- What a one-byte instruction leaves that may change the protection of the next boundary: these values in `A`, in
the flags and in the protection, and nothing else (R231, R239, R241). -/
def MaskLeaves (i : Instr) (s : State) (a : Byte) (f : Ccr) (inhibit : Bool) : Prop :=
  ∃ t, exec i s = .next t ∧ Registers t a s.x s.h s.sp ∧ t.ccr = f ∧ t.inhibit = inhibit ∧ GoesTo s t (s.pc + 1#16) ∧
    SameBytes s t ∧ t.run = s.run ∧ t.inputs = s.inputs ∧ t.schedule = s.schedule ∧ t.params = s.params

/-- CLI and TAP write the flags, and under `CliDelay` protect the next boundary just when I went from 1 to 0. -/
theorem maskLeaves_of_noteMask {i : Instr} {s : State} {f : Ccr}
    (h : exec i s = .next (((s.advanceThenDummies 1).setCcr f).noteMask s.ccr.i)) :
    MaskLeaves i s s.a f (s.params.cliDelay && s.ccr.i && !f.i) :=
  ⟨_, h, by simp [Registers], by simp, by simp, exec_goesTo h (by simp), sameBytes_of_mem (by simp), by simp, by simp,
    by simp, by simp⟩

theorem InherentLeaves.maskLeaves {i : Instr} {s : State} {a : Byte} {f : Ccr} (h : InherentLeaves i s a s.x s.h f) :
    MaskLeaves i s a f s.inhibit := by
  obtain ⟨t, ht, hregs, hccr, hgoes, hbytes, hrun, hinhibit, hrest⟩ := h
  exact ⟨t, ht, hregs, hccr, hinhibit, hgoes, hbytes, hrun, hrest⟩

/-- Settles O46. -/
theorem maskAndCcrInstructions : Obligations.MaskAndCcrInstructions := by
  unfold Obligations.MaskAndCcrInstructions
  intro s i a f inh hi
  simp only [List.mem_cons, Prod.mk.injEq, List.not_mem_nil, or_false] at hi
  obtain ⟨rfl, rfl, rfl, rfl⟩ | ⟨rfl, rfl, rfl, rfl⟩ | ⟨rfl, rfl, rfl, rfl⟩ := hi
  · have hcli : MaskLeaves .cli s s.a (s.ccr.withI false) (s.params.cliDelay && s.ccr.i && !false) :=
      maskLeaves_of_noteMask rfl
    rwa [Bool.not_false, Bool.and_true] at hcli
  · exact maskLeaves_of_noteMask (i := .tap) (f := Ccr.ofByte s.a) rfl
  · have htpa : InherentLeaves .tpa s s.ccr.toByte s.x s.h s.ccr := by
      simpa using ((PastOpcode.advance s 0).setA _).leaves (i := .tpa) rfl
    exact htpa.maskLeaves

/-! ### MUL and NSA -/

theorem hiByte_toNat_add_loByte_toNat (w : Word) : (hiByte w).toNat * 256 + (loByte w).toNat = w.toNat := by
  rw [← toNat_wordOf, wordOf_hi_lo]

/-- The product of two bytes fits in a word (R234). -/
theorem toNat_zext16_mul_zext16 (b c : Byte) : (zext16 b * zext16 c).toNat = b.toNat * c.toNat := by
  have hfits : b.toNat * c.toNat < 256 * 256 := Nat.mul_lt_mul'' b.isLt c.isLt
  rw [BitVec.toNat_mul, toNat_zext16, toNat_zext16, Nat.mod_eq_of_lt hfits]

theorem toNat_swapNibbles (b : Byte) :
    (b.extractLsb' 0 4 ++ b.extractLsb' 4 4).toNat = b.toNat % 16 * 16 + b.toNat / 16 := by
  rw [BitVec.toNat_append, ← Nat.shiftLeft_add_eq_or_of_lt (BitVec.isLt _), Nat.shiftLeft_eq, BitVec.extractLsb'_toNat,
    BitVec.extractLsb'_toNat, Nat.shiftRight_eq_div_pow, Nat.shiftRight_eq_div_pow]
  omega

theorem mul_leaves (s : State) :
    InherentLeaves .mul s (loByte (zext16 s.x * zext16 s.a)) (hiByte (zext16 s.x * zext16 s.a)) s.h
      { s.ccr with h := false, c := false } := by
  simpa using (((PastOpcode.fetch s 3).setX _).setA _).setCcr _ |>.leaves (i := .mul) rfl

theorem nsa_leaves (s : State) :
    InherentLeaves .nsa s (s.a.extractLsb' 0 4 ++ s.a.extractLsb' 4 4) s.x s.h s.ccr := by
  simpa using ((PastOpcode.fetch s 1).setA _).leaves (i := .nsa) rfl

/-- Settles O47. -/
theorem multiplyAndNibbleSwap : Obligations.MultiplyAndNibbleSwap := by
  unfold Obligations.MultiplyAndNibbleSwap
  intro s
  refine ⟨?mul, ?nsa⟩
  case mul =>
    obtain ⟨t, ht, ⟨ha, hx, hh, hsp⟩, hrest⟩ := mul_leaves s
    exact ⟨t, ht, by rw [ha, hx, hiByte_toNat_add_loByte_toNat, toNat_zext16_mul_zext16], hh, hsp, hrest⟩
  case nsa =>
    obtain ⟨t, ht, ⟨ha, hx, hh, hsp⟩, hrest⟩ := nsa_leaves s
    exact ⟨t, ht, by rw [ha, toNat_swapNibbles], hx, hh, hsp, hrest⟩

/-! ### DIV -/

/-- The quotient of `H:A` by `X` fits in a byte just when `H` is below `X`, which a divisor of zero never has (R233). -/
theorem quotient_fits_iff (s : State) :
    (s.x.toNat ≠ 0 ∧ dividend s / s.x.toNat ≤ 0xFF) ↔ s.h.toNat < s.x.toNat := by
  have hlow := s.a.isLt
  rw [dividend, toNat_wordOf]
  constructor
  · rintro ⟨hpos, hquotient⟩
    have hbelow := (Nat.div_lt_iff_lt_mul (Nat.pos_of_ne_zero hpos)).mp (Nat.lt_succ_of_le hquotient)
    omega
  · intro hlt
    exact ⟨by omega, Nat.le_of_lt_succ ((Nat.div_lt_iff_lt_mul (by omega)).mpr (by omega))⟩

section
variable {s : State}

/-- DIV ends by writing `A`, `H` and the flags, whatever it writes there (R233). -/
theorem div_leaves {a hi : Byte} {f : Ccr}
    (h : execDiv s = .next (((((s.fetchThenDummy 1).advanceThenDummies 4).setA a).setH hi).setCcr f)) :
    InherentLeaves .div s a s.x hi f := by
  simpa using (((PastOpcode.fetchThenDummy s 4).setA a).setH hi).setCcr f |>.leaves (i := .div) h

theorem div_leaves_quotient (h : s.h.toNat < s.x.toNat) : ∃ q r : Byte,
    InherentLeaves .div s q s.x r { s.ccr with c := false, z := decide (q = 0#8) } ∧
      s.h.toNat * 256 + s.a.toNat = q.toNat * s.x.toNat + r.toNat ∧ r.toNat < s.x.toNat := by
  have hfits := (quotient_fits_iff s).mpr h
  have hremainder : dividend s % s.x.toNat < s.x.toNat := Nat.mod_lt _ (by omega)
  have hq : (BitVec.ofNat 8 (dividend s / s.x.toNat)).toNat = dividend s / s.x.toNat :=
    Nat.mod_eq_of_lt (Nat.lt_succ_of_le hfits.2)
  have hr : (BitVec.ofNat 8 (dividend s % s.x.toNat)).toNat = dividend s % s.x.toNat :=
    Nat.mod_eq_of_lt (hremainder.trans s.x.isLt)
  refine ⟨_, _, div_leaves (if_pos hfits), ?division, hr.symm ▸ hremainder⟩
  case division => rw [hq, hr, Nat.div_add_mod', dividend, toNat_wordOf]

theorem div_leaves_open (h : s.x.toNat ≤ s.h.toNat) : ∃ (a hi : Byte) (z : Bool),
    InherentLeaves .div s a s.x hi { s.ccr with c := true, z := z } :=
  ⟨_, _, _, div_leaves (if_neg fun hfits => h.not_gt ((quotient_fits_iff s).mp hfits))⟩

end

/-- Settles O48. -/
theorem divideInstruction : Obligations.DivideInstruction := by
  unfold Obligations.DivideInstruction
  intro s
  obtain hlt | hle := Nat.lt_or_ge s.h.toNat s.x.toNat
  · obtain ⟨q, r, ⟨t, ht, ⟨ha, hx, hh, hsp⟩, hccr, hrest⟩, hdivision, hremainder⟩ := div_leaves_quotient hlt
    subst ha hh
    exact ⟨t, ht, fun _ => ⟨hdivision, hremainder, by rw [hccr], by rw [hccr, decide_eq_true_eq]⟩,
      fun hle => absurd hlt hle.not_gt, hx, hsp, by rw [hccr], by rw [hccr], by rw [hccr], by rw [hccr], hrest⟩
  · obtain ⟨a, hi, z, t, ht, ⟨-, hx, -, hsp⟩, hccr, hrest⟩ := div_leaves_open hle
    exact ⟨t, ht, fun hlt => absurd hlt hle.not_gt, fun _ => by rw [hccr], hx, hsp, by rw [hccr], by rw [hccr],
      by rw [hccr], by rw [hccr], hrest⟩

/-! ### DAA -/

/-- DAA leaves a byte and flags that are those of its table wherever it has a row; V comes from no table (R232). -/
theorem daa_leaves (s : State) : ∃ (a : Byte) (v n z c : Bool),
    InherentLeaves .daa s a s.x s.h { s.ccr with v := v, n := n, z := z, c := c } ∧
      ∀ correction carry,
        daaTable s.ccr.c (s.a.toNat / 16) s.ccr.h (s.a.toNat % 16) = some (correction, carry) →
        a = s.a + correction ∧ c = carry ∧ n = a.msb ∧ z = decide (a = 0#8) := by
  have hleaves {a : Byte} {f : Ccr} (h : execDaa s = .next ((((s.fetch 1).advance 1).setA a).setCcr f)) :
      InherentLeaves .daa s a s.x s.h f := by
    simpa using ((PastOpcode.fetch s 0).setA a).setCcr f |>.leaves (i := .daa) h
  cases htable : daaTable s.ccr.c (s.a.toNat / 16) s.ccr.h (s.a.toNat % 16) with
  | some row =>
    obtain ⟨correction, carry⟩ := row
    refine ⟨_, _, _, _, _, hleaves (by rw [execDaa, htable]; rfl), ?_⟩
    rintro _ _ ⟨⟩
    exact ⟨rfl, rfl, rfl, rfl⟩
  | none => exact ⟨_, _, _, _, _, hleaves (by rw [execDaa, htable]), nofun⟩

/-- Settles O49. -/
theorem decimalAdjustInstruction : Obligations.DecimalAdjustInstruction := by
  unfold Obligations.DecimalAdjustInstruction
  intro s
  obtain ⟨a, v, n, z, c, ⟨t, ht, ⟨ha, hx, hh, hsp⟩, hccr, hrest⟩, hrow⟩ := daa_leaves s
  subst ha
  refine ⟨t, ht, fun row hmem => ?_, hx, hh, hsp, by rw [hccr], by rw [hccr], hrest⟩
  have hadjusted {correction : Byte} {carry : Bool}
      (h : daaTable s.ccr.c (s.a.toNat / 16) s.ccr.h (s.a.toNat % 16) = some (correction, carry)) :
      t.a = s.a + correction ∧ t.ccr.c = carry ∧ t.ccr.n = t.a.msb ∧ (t.ccr.z = true ↔ t.a = 0#8) := by
    obtain ⟨ha, hc, hn, hz⟩ := hrow _ _ h
    rw [hccr]
    exact ⟨ha, hc, hn, by rw [hz, decide_eq_true_eq]⟩
  simp only [List.mem_cons, List.not_mem_nil, or_false] at hmem
  obtain rfl | rfl | rfl | rfl | rfl | rfl | rfl | rfl | rfl := hmem
  · exact fun hc hh _ _ _ _ => hadjusted (by rw [hc, hh, daaTable, if_pos (by omega)])
  · exact fun hc hh _ _ _ _ => hadjusted (by rw [hc, hh, daaTable, if_neg (by omega), if_pos (by omega)])
  · exact fun hc hh _ _ _ _ => hadjusted (by rw [hc, hh, daaTable, if_pos (by omega)])
  · exact fun hc hh _ _ _ _ =>
      hadjusted (by rw [hc, hh, daaTable, if_neg (by omega), if_neg (by omega), if_pos (by omega)])
  · exact fun hc hh _ _ _ _ =>
      hadjusted (by rw [hc, hh, daaTable, if_neg (by omega), if_neg (by omega), if_neg (by omega)])
  · exact fun hc hh _ _ _ _ => hadjusted (by rw [hc, hh, daaTable, if_neg (by omega), if_pos (by omega)])
  · exact fun hc hh _ _ _ _ => hadjusted (by rw [hc, hh, daaTable, if_pos (by omega)])
  · exact fun hc hh _ _ _ _ => hadjusted (by rw [hc, hh, daaTable, if_neg (by omega), if_pos (by omega)])
  · exact fun hc hh _ _ _ _ => hadjusted (by rw [hc, hh, daaTable, if_pos (by omega)])

/-! ### Decimal addition -/

/-- The row of the table for the sum of two packed BCD bytes, whose digits add up to `hi` and, with the carry in, to
`lo`: six more for each digit that passes nine, and C if the high one does (R232). -/
theorem daaTable_digitSums : ∀ (lo : Fin 20) (hi : Fin 19),
    let carry := decide (10 ≤ lo.val)
    let hundred := decide (10 ≤ hi.val + carry.toNat)
    daaTable (decide (16 ≤ hi.val + lo.val / 16)) ((hi.val + lo.val / 16) % 16) (decide (16 ≤ lo.val)) (lo.val % 16) =
      some (BitVec.ofNat 8 (0x06 * carry.toNat + 0x60 * hundred.toNat), hundred) := by
  decide

/-- The sum of two bytes by digits: `lo` and `hi` are the sums of the low digits, with the carry in, and of the high
ones (R37). -/
theorem add8_digits (a m : Byte) (cin : Bool) (f : Ccr) {lo hi : Nat}
    (hlo : a.toNat % 16 + m.toNat % 16 + cin.toNat = lo) (hhi : a.toNat / 16 + m.toNat / 16 = hi) :
    (add8 a m cin f).1.toNat = (16 * hi + lo) % 256 ∧ (add8 a m cin f).2.h = decide (16 ≤ lo) ∧
      (add8 a m cin f).2.c = decide (16 ≤ hi + lo / 16) := by
  rw [add8_toNat, add8_h, add8_c, decide_eq_decide, decide_eq_decide]
  omega

/-- ADD, and ADC with its carry in, leave the sum and its flags (R121, R122). -/
theorem exec_add_eq_add8 {i : Instr} {src : Source} {s u : State} {cin : Bool}
    (hi : (i = .add src ∧ cin = false) ∨ (i = .adc src ∧ cin = s.ccr.c)) (h : exec i s = .next u) :
    u.a = (add8 s.a (sourceValue src s) cin s.ccr).1 ∧ u.ccr = (add8 s.a (sourceValue src s) cin s.ccr).2 := by
  obtain ⟨rfl, rfl⟩ | ⟨rfl, rfl⟩ := hi <;> cases h
  · obtain ⟨ha, hccr, -⟩ := accumulate_spec src (fun m f => add8 s.a m false f) s
    exact ⟨ha, hccr⟩
  · obtain ⟨ha, hccr, -⟩ := accumulate_spec src (fun m f => add8 s.a m f.c f) s
    exact ⟨ha, hccr⟩

/-- Six for a digit that passes nine makes ten of it, which is carried: into the high digit by the low one, and out of
the byte, as `hundred`, by the high one. -/
theorem correctedSum_digits {lo hi n : Nat} {carry hundred : Bool} (hlo : lo < 20) (hhi : hi < 19)
    (hcarry : carry = true ↔ 10 ≤ lo) (hhundred : hundred = true ↔ 10 ≤ hi + carry.toNat)
    (hn : n = (16 * hi + lo + 0x06 * carry.toNat + 0x60 * hundred.toNat) % 256) :
    (n / 16 ≤ 9 ∧ n % 16 ≤ 9) ∧ n / 16 * 10 + n % 16 + 100 * hundred.toNat = 10 * hi + lo := by
  cases carry with
  | false | true =>
    cases hundred with
    | false | true =>
      simp only [Bool.toNat_false, Bool.toNat_true, reduceCtorEq, true_iff, false_iff] at hcarry hhundred hn ⊢
      omega

/-- DAA on the sum of two packed BCD bytes, with the flags that their addition leaves, gives the decimal sum. -/
theorem exec_daa_of_digitSums {u : State} {lo hi : Nat} (hlo : lo < 20) (hhi : hi < 19)
    (ha : u.a.toNat = (16 * hi + lo) % 256) (hhalf : u.ccr.h = decide (16 ≤ lo))
    (hc : u.ccr.c = decide (16 ≤ hi + lo / 16)) :
    ∃ t, exec .daa u = .next t ∧ (t.a.toNat / 16 ≤ 9 ∧ t.a.toNat % 16 ≤ 9) ∧
      t.a.toNat / 16 * 10 + t.a.toNat % 16 + 100 * t.ccr.c.toNat = 10 * hi + lo := by
  obtain ⟨a, v, n, z, c, ⟨t, ht, ⟨rfl, -⟩, hccr, -⟩, hrow⟩ := daa_leaves u
  have hhigh : u.a.toNat / 16 = (hi + lo / 16) % 16 := by omega
  have hlow : u.a.toNat % 16 = lo % 16 := by omega
  rw [hc, hhalf, hhigh, hlow] at hrow
  obtain ⟨hsum, rfl, -⟩ := hrow _ _ (daaTable_digitSums ⟨lo, hlo⟩ ⟨hi, hhi⟩)
  refine ⟨t, ht, ?_⟩
  rw [hccr]
  refine correctedSum_digits hlo hhi decide_eq_true_iff decide_eq_true_iff ?sum
  case sum => rw [hsum, BitVec.toNat_add, BitVec.toNat_ofNat, ha, ← Nat.add_mod, Nat.add_assoc (16 * hi + lo)]

/-- Settles O50. -/
theorem decimalSum : Obligations.DecimalSum := by
  unfold Obligations.DecimalSum
  intro s u src i cin m bcd value ⟨hs1, hs0⟩ ⟨hm1, hm0⟩ hi h
  obtain ⟨ha, hccr⟩ := exec_add_eq_add8 hi h
  obtain ⟨hsum, hhalf, hc⟩ := add8_digits s.a m cin s.ccr rfl rfl
  have hcin : cin.toNat ≤ 1 := cin.toNat_le
  obtain ⟨t, ht, hbcd, hvalue⟩ := exec_daa_of_digitSums (u := u) (by omega) (by omega) (ha ▸ hsum) (hccr ▸ hhalf)
    (hccr ▸ hc)
  refine ⟨t, ht, hbcd, hvalue.trans ?_⟩
  simp only [value]
  omega

end Sys2Proof.Machine

/-! Exceptions (R250 to R253, R263 to R281): which source is recognised, what the entry sequence stacks, that RTI undoes
it, the halts of WAIT and STOP, and the protection of `CliDelay`. -/

namespace Sys2Proof.Machine

open Sys2Proof.Safety

/-! ### Which source is recognised -/

/-- The `k`-th source is `q`, it requests, and it can wake the CPU if that is stopped (R268, R274). -/
def Asks (stopped : Bool) (srcs : List Config.IntSource) (reqs : List Bool) (k : Nat) (q : Config.IntSource) : Prop :=
  srcs[k]? = some q ∧ reqs[k]? = some true ∧ (stopped = true → q.wakesStop = true)

/-- `q` stands at the first position that asks. -/
def FirstAsks (stopped : Bool) (srcs : List Config.IntSource) (reqs : List Bool) (q : Config.IntSource) : Prop :=
  ∃ k, Asks stopped srcs reqs k q ∧ ∀ j, j < k → ∀ p, ¬ Asks stopped srcs reqs j p

section
variable {stopped : Bool} {src q : Config.IntSource} {srcs : List Config.IntSource} {req : Bool} {reqs : List Bool}

theorem asks_zero : Asks stopped (src :: srcs) (req :: reqs) 0 q ↔
    src = q ∧ (req && (!stopped || src.wakesStop)) = true := by
  simp only [Asks, List.getElem?_cons_zero, Option.some.injEq, Bool.and_eq_true]
  refine and_congr_right ?_
  rintro rfl
  cases stopped <;> simp

theorem asks_succ {k : Nat} :
    Asks stopped (src :: srcs) (req :: reqs) (k + 1) q ↔ Asks stopped srcs reqs k q := by simp [Asks]

/-- The first that asks is the head, or the first of the tail where the head does not ask. -/
theorem firstAsks_cons : FirstAsks stopped (src :: srcs) (req :: reqs) q ↔
    Asks stopped (src :: srcs) (req :: reqs) 0 q ∨
      (∀ p, ¬ Asks stopped (src :: srcs) (req :: reqs) 0 p) ∧ FirstAsks stopped srcs reqs q := by
  constructor
  · rintro ⟨k, hk, hbefore⟩
    cases k with
    | zero => exact .inl hk
    | succ k =>
      exact .inr ⟨hbefore 0 k.succ_pos, k, asks_succ.mp hk,
        fun j hj p hp => hbefore (j + 1) (Nat.succ_lt_succ hj) p (asks_succ.mpr hp)⟩
  · rintro (hk | ⟨hhead, k, hk, hbefore⟩)
    · exact ⟨0, hk, nofun⟩
    · refine ⟨k + 1, asks_succ.mpr hk, fun j hj p hp => ?_⟩
      cases j with
      | zero => exact hhead p hp
      | succ j => exact hbefore j (Nat.lt_of_succ_lt_succ hj) p (asks_succ.mp hp)

end

/-- The first source that asks has the highest priority (R268, R274). -/
theorem highestPending_eq_some {stopped : Bool} {q : Config.IntSource} (srcs : List Config.IntSource)
    (reqs : List Bool) : highestPending stopped srcs reqs = some q ↔ FirstAsks stopped srcs reqs q := by
  induction srcs generalizing reqs with
  | nil => simp [highestPending, FirstAsks, Asks]
  | cons src srcs ih =>
    cases reqs with
    | nil => simp [highestPending, FirstAsks, Asks]
    | cons req reqs =>
      rw [highestPending, firstAsks_cons, ← ih reqs]
      cases hguard : req && (!stopped || src.wakesStop) with
      | true | false => simp [asks_zero, hguard]

/-- Settles O13. -/
theorem recognisedSource : Obligations.RecognisedSource := by
  unfold Obligations.RecognisedSource
  intro s src asks
  have hasks (k : Nat) (q : Config.IntSource) :
      asks k q ↔ Asks (s.run == .stopped) s.params.intSources s.inputs.requests k q := by simp [asks, Asks]
  simp only [hasks, State.recognised]
  rw [← FirstAsks, ← highestPending_eq_some]
  cases s.ccr.i <;> cases s.inhibit <;> simp

/-! ### The frame of the entry sequence -/

/-- The five places of an exception frame are RAM. -/
def FrameInRam (s : State) : Prop :=
  s.isRam s.sp = true ∧ s.isRam (s.sp - 1#16) = true ∧ s.isRam (s.sp - 2#16) = true ∧
    s.isRam (s.sp - 3#16) = true ∧ s.isRam (s.sp - 4#16) = true

/-- Memory of `t` is that of `s` with the frame of R267 stacked, and the return address `ret` in it. -/
def FrameStacked (s t : State) (ret : Word) : Prop :=
  t.mem.read s.sp.toNat = loByte ret ∧ t.mem.read (s.sp - 1#16).toNat = hiByte ret ∧
    t.mem.read (s.sp - 2#16).toNat = s.x ∧ t.mem.read (s.sp - 3#16).toNat = s.a ∧
    t.mem.read (s.sp - 4#16).toNat = s.ccr.toByte ∧
    ∀ c : Word, c ∉ [s.sp, s.sp - 1#16, s.sp - 2#16, s.sp - 3#16, s.sp - 4#16] →
      t.mem.read c.toNat = s.mem.read c.toNat

/-- The pushes of the entry sequence go to five places, none of which a later push overwrites. -/
theorem State.takeException_frameStacked (s : State) (hm : s.mem.wf = true) (hram : FrameInRam s) (ret vec : Word) :
    FrameStacked s (s.takeException ret vec) ret := by
  obtain ⟨h0, h1, h2, h3, h4⟩ := hram
  have hread := s.takeException_memRead hm ret vec
  simp only [h0, h1, h2, h3, h4, and_true] at hread
  refine ⟨?_, ?_, ?_, ?_, ?_, fun c hc => ?other⟩
  case other =>
    simp only [List.mem_cons, List.not_mem_nil, or_false, not_or] at hc
    simp [hread, hc]
  all_goals
    rw [hread]
    simp [BitVec.sub_eq_add_neg]

/-! ### SWI and interrupt entry -/

/-- Settles O17. -/
theorem softwareInterrupt : Obligations.SoftwareInterrupt := by
  unfold Obligations.SoftwareInterrupt
  intro s hm h0 h1 h2 h3 h4
  obtain ⟨bus, hran, hentry⟩ := s.takeException_entry (s.pc + 1#16) s.params.vecSwi
  obtain ⟨-, hcycles, -⟩ := hran.spec
  obtain ⟨hlow, hhigh, hx, ha, hccr, hother⟩ :=
    s.takeException_frameStacked hm ⟨h0, h1, h2, h3, h4⟩ (s.pc + 1#16) s.params.vecSwi
  exact ⟨_, rfl, by simp [Registers], by simp [Ccr.withI], hlow, hhigh, hx, ha, hccr, hother, hcycles ▸ hentry,
    (Continues.takeException s _ _).2⟩

/-- The entry sequence at a boundary, as the state before the sampling of the inputs sees it. -/
theorem State.takeInterrupt_entry (s : State) (src : Config.IntSource) :
    let t := s.sampleInputs.takeInterrupt src
    EntrySequence s t s.pc src.vector t.bus ∧ t.bus.length = 9 ∧ t.io = devicesSeen s t.bus := by
  intro t
  obtain ⟨bus, hran, surplus, hi, lo, opcode, hbus, -, hpc, hibuf⟩ :=
    s.sampleInputs.takeException_entry s.sampleInputs.pc src.vector
  obtain ⟨hrecord, -, hio, -, -, hcoherent⟩ := State.sampleInputs_ran hran
  have htbus : t.bus = bus := by simpa [t] using hrecord
  have htpc : t.pc = wordOf hi lo := by simpa [t] using hpc
  have htibuf : t.ibuf = opcode := by simpa [t] using hibuf
  rw [htbus]
  refine ⟨⟨surplus, hi, lo, opcode, ?_, hcoherent, htpc, htibuf⟩, by rw [hbus]; rfl, by simpa [t] using hio⟩
  simpa [t] using hbus

theorem State.takeInterrupt_frameStacked (s : State) (hm : s.mem.wf = true) (hram : FrameInRam s)
    (src : Config.IntSource) : FrameStacked s (s.sampleInputs.takeInterrupt src) s.pc := by
  have hframe := s.sampleInputs.takeException_frameStacked (by simpa using hm) (by simpa [FrameInRam] using hram)
    s.sampleInputs.pc src.vector
  simpa [FrameStacked] using hframe

/-- Settles O14. -/
theorem interruptEntry : Obligations.InterruptEntry := by
  unfold Obligations.InterruptEntry
  intro s src hm hreset hundisturbed hrec h0 h1 h2 h3 h4 hmarked
  obtain ⟨hentry, hlength, hio⟩ := s.takeInterrupt_entry src
  obtain ⟨hlow, hhigh, hx, ha, hccr, hother⟩ := s.takeInterrupt_frameStacked hm ⟨h0, h1, h2, h3, h4⟩ src
  have hstep : step s = .next (s.sampleInputs.takeInterrupt src) := by
    rw [step_interrupt s src hreset hrec, State.sequence_whole _ _ (hlength ▸ hundisturbed)]
    exact State.finish_next _ _ (by simpa [State.firstMarked] using hmarked)
  refine ⟨_, hstep, by simp [Registers], by simp [Ccr.withI], by simp, hlow, hhigh, hx, ha, hccr, hother, hentry,
    by simp, by simp, by simp, by simp, hio, fun hrun => ?cycles⟩
  case cycles => simp [State.entryCycles, hrun, entryCode]

/-! ### RTI -/

theorem exec_rti (s : State) : exec .rti s = .next s.returnFromException := rfl

/-- Settles O18. -/
theorem returnFromInterrupt : Obligations.ReturnFromInterrupt := by
  unfold Obligations.ReturnFromInterrupt
  intro s
  obtain ⟨surplus, b, a, x, hi, lo, opcode, hran, ha, hx, hh, hsp, hccr, hpc, hibuf, hrun, hinputs, hschedule,
    hparams, hmem, -⟩ := s.returnFromException_spec
  obtain ⟨-, hcycles, -, -, -, -, hcoherent⟩ := hran.spec
  exact ⟨_, surplus, b, a, x, hi, lo, opcode, exec_rti s, hpc ▸ hcycles, hcycles ▸ hcoherent,
    ⟨ha, hx, hh, hsp⟩, hccr, hpc, hibuf, sameBytes_of_mem hmem, hrun, hinputs, hschedule, hparams⟩

/-- RTI with RAM above `SP` restores the registers and `pc` from the five bytes there (R250). -/
theorem exec_rti_ram {s : State} (h1 : s.isRam (s.sp + 1#16) = true) (h2 : s.isRam (s.sp + 2#16) = true)
    (h3 : s.isRam (s.sp + 3#16) = true) (h4 : s.isRam (s.sp + 4#16) = true) (h5 : s.isRam (s.sp + 5#16) = true) :
    ∃ t, exec .rti s = .next t ∧
      Registers t (s.mem.read (s.sp + 2#16).toNat) (s.mem.read (s.sp + 3#16).toNat) s.h (s.sp + 5#16) ∧
      t.ccr = Ccr.ofByte (s.mem.read (s.sp + 1#16).toNat) ∧
      t.pc = wordOf (s.mem.read (s.sp + 4#16).toNat) (s.mem.read (s.sp + 5#16).toNat) ∧ SameBytes s t := by
  obtain ⟨t, _, b, a, x, hi, lo, _, hexec, hcycles, hcoherent, hregs, hccr, hpc, -, hbytes,
    -⟩ := returnFromInterrupt s
  rw [hcycles] at hcoherent
  have hb : b = s.mem.read (s.sp + 1#16).toNat := coherent_data_of_ram hcoherent (k := 1) rfl rfl rfl h1
  have ha : a = s.mem.read (s.sp + 2#16).toNat := coherent_data_of_ram hcoherent (k := 2) rfl rfl rfl h2
  have hx : x = s.mem.read (s.sp + 3#16).toNat := coherent_data_of_ram hcoherent (k := 3) rfl rfl rfl h3
  have hhi : hi = s.mem.read (s.sp + 4#16).toNat := coherent_data_of_ram hcoherent (k := 4) rfl rfl rfl h4
  have hlo : lo = s.mem.read (s.sp + 5#16).toNat := coherent_data_of_ram hcoherent (k := 5) rfl rfl rfl h5
  subst hb ha hx hhi hlo
  exact ⟨t, hexec, hregs, hccr, hpc, hbytes⟩

/-- Settles O19: RTI finds, above the `SP` that the entry sequence leaves, the frame that it stacked. -/
theorem returnUndoesEntry : Obligations.ReturnUndoesEntry := by
  unfold Obligations.ReturnUndoesEntry
  intro s ret vec hm h0 h1 h2 h3 h4
  obtain ⟨hlow, hhigh, hx, ha, hccr, -⟩ := s.takeException_frameStacked hm ⟨h0, h1, h2, h3, h4⟩ ret vec
  have hsp (j k : Word) (hjk : j - 5#16 = -k) : (s.takeException ret vec).sp + j = s.sp - k := by
    rw [State.takeException_sp, BitVec.sub_eq_add_neg s.sp k, ← hjk]
    bv_omega
  obtain ⟨t, hexec, hregs, htccr, hpc, hbytes⟩ := exec_rti_ram (s := s.takeException ret vec)
    (by rw [hsp _ 4#16 rfl, State.takeException_isRam, h4]) (by rw [hsp _ 3#16 rfl, State.takeException_isRam, h3])
    (by rw [hsp _ 2#16 rfl, State.takeException_isRam, h2]) (by rw [hsp _ 1#16 rfl, State.takeException_isRam, h1])
    (by rw [hsp _ 0#16 rfl, State.takeException_isRam, BitVec.sub_zero, h0])
  rw [hsp 2#16 3#16 rfl, hsp 3#16 2#16 rfl, hsp 5#16 0#16 rfl, ha, hx, BitVec.sub_zero, State.takeException_h] at hregs
  rw [hsp 1#16 4#16 rfl, hccr, Ccr.ofByte_toByte] at htccr
  rw [hsp 4#16 1#16 rfl, hsp 5#16 0#16 rfl, hhigh, BitVec.sub_zero, hlow, wordOf_hi_lo] at hpc
  exact ⟨t, hexec, hregs, htccr, exec_goesTo hexec hpc, hbytes⟩

/-! ### WAIT and STOP -/

theorem exec_stop_asWait {s : State} (h : s.params.stopBehaviour = .asWait) :
    exec .stop s = .next ((s.advance 1).halt .stopped) := by rw [exec, execStop, h]

theorem exec_stop_refuse {s : State} (h : s.params.stopBehaviour = .refuse) :
    exec .stop s = .refused .stopNotPermitted := by rw [exec, execStop, h]

/-- Settles O51: WAIT and STOP end in the same halt. -/
theorem haltInstructions : Obligations.HaltInstructions := by
  unfold Obligations.HaltInstructions
  refine ⟨fun s i r hi hstop => ?halts, fun s => exec_stop_refuse⟩
  have hexec : exec i s = .next ((s.advance 1).halt r) := by
    simp only [List.mem_cons, Prod.mk.injEq, List.not_mem_nil, or_false] at hi
    obtain ⟨rfl, rfl⟩ | ⟨rfl, rfl⟩ := hi
    · rfl
    · exact exec_stop_asWait (hstop rfl)
  exact ⟨_, hexec, by simp, by simp [Ccr.withI], exec_goesTo hexec (by simp), by simp [Registers],
    sameBytes_of_mem (by simp), by simp, by simp, by simp, by simp⟩

/-! ### The protection of `CliDelay` -/

/-- CLI, TAP and RTI note whether they cleared I (R231). -/
theorem exec_maskNoted {i : Instr} {s t : State} (hi : i = .cli ∨ i = .tap ∨ i = .rti) (h : exec i s = .next t) :
    MaskNoted s t := by
  obtain rfl | rfl | rfl := hi
  · cases h; exact ⟨by simp, by simp⟩
  · cases h; exact ⟨by simp, by simp⟩
  · cases h
    obtain ⟨_, _, _, _, _, _, _, -, -, -, -, -, hccr, -, -, hrun, -, -, -, -, hinhibit⟩ :=
      s.returnFromException_spec
    exact ⟨hrun, by rw [hinhibit, hccr]⟩

/-- A halt protects nothing (R251, R253). -/
theorem exec_halt_inhibit {i : Instr} {s t : State} (hi : i = .wait ∨ i = .stop) (h : exec i s = .next t) :
    t.inhibit = s.inhibit := by
  obtain rfl | rfl := hi
  · cases h; simp
  · cases hp : s.params.stopBehaviour with
    | asWait => rw [exec_stop_asWait hp] at h; cases h; simp
    | refuse => rw [exec_stop_refuse hp] at h; exact nomatch h

/-- The instructions that can clear I (R28). -/
theorem clears_mask {i : Instr} {s t : State} (h : exec i s = .next t) (hs : s.ccr.i = true) (ht : t.ccr.i = false) :
    (i = .cli ∨ i = .tap ∨ i = .rti) ∨ (i = .wait ∨ i = .stop) := by
  have hwrites : writesI i = true := by
    by_contra hkeeps
    rw [(exec_flags h).mask (by simpa using hkeeps), hs] at ht
    exact nomatch ht
  cases i with
  | rti | tap | stop | wait | cli => simp
  | swi | sei => cases h; simp [Ccr.withI] at ht
  | _ => exact nomatch hwrites

/-- A protection that an instruction leaves is one that it noted (R231, R302). -/
theorem inhibit_of_completes {s t : State} (h : Completes s t) (hs : s.inhibit = false) (ht : t.inhibit = true) :
    s.params.cliDelay = true ∧ s.ccr.i = true ∧ t.ccr.i = false := by
  obtain ⟨-, ⟨-, hsame, -⟩ | ⟨-, -, hsame⟩ | ⟨-, hnoted⟩⟩ := h
  · rw [hsame, hs] at ht; exact nomatch ht
  · rw [hsame, hs] at ht; exact nomatch ht
  · simpa [ht, and_assoc] using hnoted.symm

/-- Settles O16. -/
theorem clearedMaskDelay : Obligations.ClearedMaskDelay := by
  unfold Obligations.ClearedMaskDelay
  intro i s t h
  refine ⟨⟨fun ht => ?only, fun ⟨hdelay, hs, ht, hi⟩ => ?noted⟩,
    fun ht e => State.recognised_masked _ (.inr (by simpa using ht))⟩
  case only =>
    obtain ⟨hdelay, hs, hclear⟩ := inhibit_of_completes (exec_completes h) rfl ht
    obtain hi | hhalt := clears_mask h hs hclear
    · exact ⟨hdelay, hs, hclear, hi⟩
    · rw [exec_halt_inhibit hhalt h] at ht
      exact nomatch ht
  case noted =>
    obtain ⟨-, hinhibit⟩ := exec_maskNoted hi h
    simp [hinhibit, hdelay, hs, ht]

/-! ### Every instruction completes -/

/-- Settles O55. -/
theorem everyInstructionCompletes : Obligations.EveryInstructionCompletes := by
  unfold Obligations.EveryInstructionCompletes
  intro i s hstop
  obtain hnext | ⟨rfl, hrefuse, -⟩ := exec_cases i s
  · exact hnext
  · rw [hstop rfl] at hrefuse
    exact nomatch hrefuse

end Sys2Proof.Machine

/-! Resets (R290 to R292): the reset sequence at a boundary, what it leaves, and the resets that fall into a sequence
of bus cycles. -/

namespace Sys2Proof.Machine

open Sys2Proof.Safety

/-! ### The reset sequence -/

/-- Settles O11. -/
theorem resetSequence : Obligations.ResetSequence := by
  unfold Obligations.ResetSequence
  intro s hreset hundisturbed hmarked
  obtain ⟨hi, lo, opcode, hran, hpc, hibuf⟩ := s.sampleInputs.takeReset_ran
  obtain ⟨-, -, hrun, -, hmem, -, -, -, hcycles⟩ := s.sampleInputs.takeReset_spec
  obtain ⟨hbus, -, -, hio, -, -, hcoherent⟩ := hran.spec
  rw [State.setMem_bus, State.sampleInputs_bus, List.nil_append] at hbus
  have hstep : step s = .next s.sampleInputs.takeReset := by
    rw [step_reset s hreset, State.resetSequence, State.takeResets_undisturbed _ hundisturbed]
    exact State.finish_next _ _ (by simpa [State.firstMarked] using hmarked)
  refine ⟨s.sampleInputs.takeReset, hi, lo, opcode, hstep, hpc ▸ hbus, ?coherent, hpc, hibuf,
    fun hkept => ?kept, hrun, by simpa using hcycles, ?seen⟩
  case coherent =>
    rw [hbus]
    exact coherent_congr hcoherent (by simpa using hmem) (by simp) (by simp) (by simp)
  case kept =>
    rw [hmem, State.memoryAfterReset, State.sampleInputs_params, hkept]
    exact s.sampleInputs_mem
  case seen => simpa [hbus, devicesSeen] using hio

/-! ### What a reset leaves -/

theorem givenBy_byteAfterReset (v : Option Byte) (item : Config.Draw) (n : Nat) :
    GivenBy v (byteAfterReset v item n) := by
  rintro w rfl
  rfl

theorem givenBy_flagAfterReset (v : Option Bool) (item : Config.Draw) (n : Nat) :
    GivenBy v (flagAfterReset v item n) := by
  rintro w rfl
  rfl

/-- The registers of `t` are those that `r` gives, where it gives them (R291). -/
def RegistersGiven (r : Config.ResetState) (t : State) : Prop :=
  GivenBy r.a t.a ∧ GivenBy r.x t.x ∧ GivenBy r.h t.h ∧ GivenBy r.sp t.sp ∧ GivenBy r.v t.ccr.v ∧
    GivenBy r.half t.ccr.h ∧ GivenBy r.i t.ccr.i ∧ GivenBy r.n t.ccr.n ∧ GivenBy r.z t.ccr.z ∧
    GivenBy r.c t.ccr.c

theorem State.resetRegisters_given (s : State) : RegistersGiven s.params.resetState s.resetRegisters :=
  ⟨givenBy_byteAfterReset _ _ _, givenBy_byteAfterReset _ _ _, givenBy_byteAfterReset _ _ _,
    fun w hw => by simp [State.resetRegisters, hw], givenBy_flagAfterReset _ _ _, givenBy_flagAfterReset _ _ _,
    givenBy_flagAfterReset _ _ _, givenBy_flagAfterReset _ _ _, givenBy_flagAfterReset _ _ _,
    givenBy_flagAfterReset _ _ _⟩

/-- The cycles of the reset sequence write no register but `pc`. -/
theorem State.takeReset_given (s : State) : RegistersGiven s.params.resetState s.takeReset := by
  simpa [RegistersGiven, State.takeReset] using s.resetRegisters_given

/-- After the first cycles of a reset sequence, memory is as the reset leaves it: they store nothing. -/
theorem State.resetBegun_mem (s : State) (k : Nat) : (s.resetBegun k).mem = s.memoryAfterReset := by
  obtain ⟨hi, lo, opcode, hcycles, -⟩ := s.resetCycles_spec
  have hquiet : ((s.resetCycles.take k).map BusAccess.kind).any BusCycle.stores = false := by
    rw [List.any_eq_false]
    intro kind hkind
    have hkind' := List.mem_of_mem_take (List.map_take ▸ hkind)
    rw [hcycles] at hkind'
    simp only [List.map_cons, List.map_nil, List.mem_cons, List.not_mem_nil, or_false] at hkind'
    obtain rfl | rfl | rfl := hkind' <;> decide
  rw [State.resetBegun, State.partWay_mem_of_reads _ _ hquiet]
  rfl

/-- A reset leaves memory as it was where there is no RAM, and everywhere where `ResetState` keeps RAM (R292). -/
theorem State.memoryAfterReset_kept (s : State) {b : Word}
    (hb : s.isRam b = false ∨ s.params.resetState.ram = .kept) :
    s.memoryAfterReset.read b.toNat = s.mem.read b.toNat := by
  rw [State.memoryAfterReset_read]
  obtain hb | hb := hb
  · simp [hb]
  · simp [hb]

/-! ### What the reset sequence leaves, with the resets that fall into it -/

section
variable (again : List Nat) (s : State)

theorem State.takeResets_given : RegistersGiven s.params.resetState (s.takeResets again) := by
  obtain ⟨c, hc, hparams, -⟩ := State.takeResets_last again s
  rw [hc, ← hparams]
  exact c.takeReset_given

theorem State.takeResets_memRead_kept {b : Word} (hb : s.isRam b = false ∨ s.params.resetState.ram = .kept) :
    (s.takeResets again).mem.read b.toNat = s.mem.read b.toNat := by
  obtain ⟨c, hc, hparams, -, -, -, -, -, -, -, hkept⟩ := State.takeResets_last again s
  obtain ⟨-, -, -, -, hmem, -⟩ := c.takeReset_spec
  rw [hc, hmem, State.memoryAfterReset_kept c (by rwa [State.isRam, hparams]), hkept b hb]

theorem State.takeResets_memRead_given {b : Word} {m : List Host.Cell} (hb : s.isRam b = true)
    (hm : s.params.resetState.ram = .given m) : (s.takeResets again).mem.read b.toNat = Memory.read m b.toNat := by
  obtain ⟨c, hc, hparams, -⟩ := State.takeResets_last again s
  obtain ⟨-, -, -, -, hmem, -⟩ := c.takeReset_spec
  rw [hc, hmem, State.memoryAfterReset_read, State.isRam, hparams, ← State.isRam, if_pos hb, hm]

/-- The CPU runs, no boundary is protected, and what the reset does not write is as before (R291). -/
theorem State.takeResets_control :
    let t := s.takeResets again
    t.run = .running ∧ t.inhibit = false ∧ t.params = s.params ∧ t.inputs = s.inputs ∧
      t.schedule = s.schedule ∧ s.cycles + 3 ≤ t.cycles := by
  obtain ⟨c, hc, hparams, hinputs, hschedule, -, hcount, -⟩ := State.takeResets_last again s
  obtain ⟨-, -, hrun, hinhibit, -, htparams, htinputs, htschedule, hcycles⟩ := c.takeReset_spec
  rw [hc]
  exact ⟨hrun, hinhibit, htparams.trans hparams, htinputs.trans hinputs, htschedule.trans hschedule, by omega⟩

end

theorem State.takeResets_cycles_undisturbed {s : State} (h : ResetUndisturbed s) :
    (s.takeResets s.inputs.resetAgain).cycles = s.cycles + 3 := by
  obtain ⟨-, -, -, -, -, -, -, -, hcycles⟩ := s.takeReset_spec
  rw [State.takeResets_undisturbed s h, hcycles]

/-- The first `k` cycles of a reset sequence, which a second reset breaks off (R292). -/
theorem State.resetBegun_spec (s : State) {k : Nat} (hk : k < 3) :
    let made := s.resetCycles.take k
    let d := s.resetBegun k
    made.map BusAccess.addr = [0xFFFE#16, 0xFFFF#16].take k ∧ d.bus = s.bus ++ made ∧ d.cycles = s.cycles + k ∧
      d.io = devicesSeen s made ∧ Coherent (s.setMem d.mem) made ∧ d.params = s.params := by
  intro made d
  obtain ⟨hi, lo, opcode, hcycles, -⟩ := s.resetCycles_spec
  obtain ⟨hbus, -, hcount, hio, -, hparams, hcoherent⟩ := (s.resetBegun_ran k).spec
  have hlength : made.length = k := by simp [made, hcycles]; omega
  refine ⟨?addresses, hbus, ?count, hio, ?coherent, hparams⟩
  case addresses =>
    simp only [made, hcycles]
    obtain rfl | rfl | rfl : k = 0 ∨ k = 1 ∨ k = 2 := by omega
    · rfl
    · rfl
    · rfl
  case count =>
    rw [hlength] at hcount
    exact hcount
  case coherent => rwa [State.resetBegun_mem]

/-! ### Resets that fall into a sequence -/

/-- A reset request `some k` takes the CPU after the first `k` cycles of the sequence that starts at the boundary, which
ends in `t` (R292). -/
theorem step_broken {s t : State} {k : Nat} (hreset : s.sampleInputs.inputs.resetRequest = some k)
    (hseq : k = 0 ∨ (step s = s.sampleInputs.sequence t ∧ k < t.bus.length))
    (hmarked : s.firstMarked (t.bus.take k) = none) :
    step s = (s.sampleInputs.partWay (t.bus.take k)).resetSequence := by
  obtain rfl | ⟨hstep, hk⟩ := hseq
  · exact step_reset s hreset
  · rw [hstep]
    exact State.sequence_broken _ t k hreset hk (by simpa [State.firstMarked] using hmarked)

/-- The instruction at a boundary, as a sequence of as many cycles as it has. -/
theorem step_sequence_of_instruction {s t : State} {i : Instr} {rest : List Byte} (hnext : RunsNext s.sampleInputs)
    (hdec : decode s.sampleInputs.fetchBytes = .ok (i, rest))
    (hexec : exec i (s.sampleInputs.setInhibit false) = .next t) :
    step s = s.sampleInputs.sequence t ∧ t.bus.length = cycleCount i := by
  obtain ⟨hreset, hrec, hrun⟩ := hnext
  obtain ⟨n, hcycles⟩ := exec_bus (s := s.sampleInputs.setInhibit false) s.sampleInputs_bus hexec
  refine ⟨?_, by rw [cycleCount, ← hcycles.kinds, List.length_map]⟩
  rw [step_instruction s hreset hrec (by simpa using hrun), runInstruction_eq hdec, hexec]

/-- The state that a reset finds inside a sequence: its first cycles made, with the stores among them (R292). -/
theorem State.partWay_sampleInputs (s : State) (bus : List BusAccess) :
    let c := s.sampleInputs.partWay bus
    c.mem = memoryAfter s bus ∧ c.params = s.params ∧ c.cycles = s.cycles + bus.length ∧
      c.io = devicesSeen s bus := by
  intro c
  refine ⟨(State.partWay_mem bus _).trans ?_, by simp [c], by simp [c], (State.partWay_io bus _).trans ?_⟩
  · simp [memoryAfter]
  · simp [devicesSeen]

/-- Settles O12. -/
theorem resetRegistersAndMemory : Obligations.ResetRegistersAndMemory := by
  unfold Obligations.ResetRegistersAndMemory
  refine ⟨fun c t h => ?leaves, fun c k again hagain hk => ?insideReset, fun s t k hreset hseq hmarked => ?inside⟩
  case leaves =>
    intro r
    obtain rfl : t = c.takeResets c.inputs.resetAgain := State.finish_eq_next h
    obtain ⟨ha, hx, hh, hsp, hv, hhalf, hi, hn, hz, hc⟩ := c.takeResets_given c.inputs.resetAgain
    obtain ⟨hrun, hinhibit, hparams, hinputs, hschedule, hcount⟩ := c.takeResets_control c.inputs.resetAgain
    exact ⟨ha, hx, hh, hsp, hv, hhalf, hi, hn, hz, hc, fun b => c.takeResets_memRead_kept _,
      fun b m => c.takeResets_memRead_given _, hrun, hinhibit, hparams, hinputs, hschedule, hcount,
      State.takeResets_cycles_undisturbed⟩
  case insideReset =>
    intro made d
    obtain ⟨haddr, hbus, hcycles, hio, hcoherent, hparams⟩ := c.resetBegun_spec hk
    refine ⟨?_, rfl, haddr, hbus, hcycles, hio, hcoherent, hparams, fun b hb => ?_⟩
    · rw [State.resetSequence, hagain, State.takeResets, if_pos (by simpa [resetCode] using hk)]
    · rw [State.resetBegun_mem, State.memoryAfterReset_kept c hb]
  case inside =>
    intro d
    obtain ⟨hmem, hparams, hcycles, hio⟩ := s.partWay_sampleInputs (t.bus.take k)
    refine ⟨step_broken hreset ?_ hmarked, hmem, hparams, fun hk => ?_, hio⟩
    · obtain rfl | ⟨i, rest, hnext, hdec, hexec, hk⟩ | ⟨src, hrec, rfl, hk⟩ := hseq
      · exact .inl rfl
      · obtain ⟨hstep, hlength⟩ := step_sequence_of_instruction hnext hdec hexec
        exact .inr ⟨hstep, hlength ▸ hk⟩
      · obtain ⟨-, hlength, -⟩ := s.takeInterrupt_entry src
        by_cases hzero : k = 0
        · exact .inl hzero
        · exact .inr ⟨step_interrupt s src (by simpa [hreset] using hzero) hrec, hlength ▸ hk⟩
    · rw [hcycles, List.length_take, Nat.min_eq_left hk]

end Sys2Proof.Machine

/-! The end of a run (R294; 92 D27): each equation of `runTo` once, then inductions on the steps allowed. -/

namespace Sys2Proof.Machine

section
variable {stop : Word} {s t : State}

theorem runTo_of_pc_eq (h : s.pc = stop) : ∀ n : Nat, runTo stop n s = .ended s
  | 0 => if_pos h
  | _ + 1 => if_pos h

theorem runTo_zero_of_pc_ne (h : s.pc ≠ stop) : runTo stop 0 s = .unfinished s := if_neg h

section
variable (h : s.pc ≠ stop) (n : Nat)
include h

theorem runTo_succ_of_next (hstep : step s = .next t) : runTo stop (n + 1) s = runTo stop n t := by
  rw [runTo, if_neg h, hstep]

theorem runTo_succ_of_fault {r : Fault} (hstep : step s = .fault r) : runTo stop (n + 1) s = .fault r := by
  rw [runTo, if_neg h, hstep]

theorem runTo_succ_of_refused {r : Refusal} (hstep : step s = .refused r) : runTo stop (n + 1) s = .refused r := by
  rw [runTo, if_neg h, hstep]

end

end

theorem run_succ_of_step {core : Host.Core} {s t : core.State} (h : core.step s = .next t) (k : Nat) :
    core.run (k + 1) s = core.run k t := by
  rw [Host.Core.run, h]

/-- The state in which a run ends is the first one at the end address. -/
theorem runTo_ended {stop : Word} {n : Nat} {s t : State} (h : runTo stop n s = .ended t) :
    t.pc = stop ∧ ∃ k, k ≤ n ∧ Sys2Proof.core.run k s = .next t ∧
      ∀ j, j < k → ∀ u : State, Sys2Proof.core.run j s = .next u → u.pc ≠ stop := by
  induction n generalizing s with
  | zero =>
    by_cases hpc : s.pc = stop
    · rw [runTo_of_pc_eq hpc] at h
      cases h
      exact ⟨hpc, 0, Nat.le_refl 0, rfl, nofun⟩
    · rw [runTo_zero_of_pc_ne hpc] at h
      exact nomatch h
  | succ n ih =>
    by_cases hpc : s.pc = stop
    · rw [runTo_of_pc_eq hpc] at h
      cases h
      exact ⟨hpc, 0, Nat.zero_le _, rfl, nofun⟩
    · cases hstep : step s with
      | fault r => rw [runTo_succ_of_fault hpc n hstep] at h; exact nomatch h
      | refused r => rw [runTo_succ_of_refused hpc n hstep] at h; exact nomatch h
      | next u =>
        rw [runTo_succ_of_next hpc n hstep] at h
        have hrun_succ (k : Nat) : Sys2Proof.core.run (k + 1) s = Sys2Proof.core.run k u :=
          run_succ_of_step (core := Sys2Proof.core) hstep k
        obtain ⟨htpc, k, hk, hrun, hbefore⟩ := ih h
        refine ⟨htpc, k + 1, Nat.succ_le_succ hk, (hrun_succ k).trans hrun, fun j hj v hv => ?_⟩
        cases j with
        | zero => cases hv; exact hpc
        | succ j => exact hbefore j (Nat.lt_of_succ_lt_succ hj) v ((hrun_succ j).symm.trans hv)

/-- More steps change nothing of a run that has come out. -/
theorem runTo_mono {stop : Word} {n m : Nat} {s : State} (hnm : n ≤ m)
    (h : ∀ u, runTo stop n s ≠ .unfinished u) : runTo stop m s = runTo stop n s := by
  induction n generalizing s m with
  | zero =>
    by_cases hpc : s.pc = stop
    · rw [runTo_of_pc_eq hpc, runTo_of_pc_eq hpc]
    · exact absurd (runTo_zero_of_pc_ne hpc) (h s)
  | succ n ih =>
    obtain ⟨m, rfl⟩ : ∃ j, m = j + 1 := ⟨m - 1, by omega⟩
    by_cases hpc : s.pc = stop
    · rw [runTo_of_pc_eq hpc, runTo_of_pc_eq hpc]
    · cases hstep : step s with
      | fault r => rw [runTo_succ_of_fault hpc m hstep, runTo_succ_of_fault hpc n hstep]
      | refused r => rw [runTo_succ_of_refused hpc m hstep, runTo_succ_of_refused hpc n hstep]
      | next u =>
        rw [runTo_succ_of_next hpc n hstep] at h
        rw [runTo_succ_of_next hpc m hstep, runTo_succ_of_next hpc n hstep]
        exact ih (Nat.le_of_succ_le_succ hnm) h

/-- Settles O60. -/
theorem endOfRun : Obligations.EndOfRun := by
  unfold Obligations.EndOfRun
  refine fun stop n s => ⟨fun t => runTo_ended, fun m hnm => ⟨fun t ht => ?ended, fun f hf => ?fault⟩⟩
  case ended => rw [runTo_mono hnm (by simp [ht]), ht]
  case fault => rw [runTo_mono hnm (by simp [hf]), hf]

end Sys2Proof.Machine
